-- ==== Sys2Proof/Word.lean ====
section
/-! DEFINITION. The two word types of the memory port: every access moves one 32-bit word (R36 of 20_memory.md), held as
four bytes of the physical address space (R34). -/

namespace Sys2Proof

/-- A 32-bit word: a command word (R50) or the contents of a target register (R20 to R23). -/
abbrev Word := BitVec 32

/-- One byte of the physical address space (R34). -/
abbrev Byte := BitVec 8

end Sys2Proof
end

