-- ==== Sys2Proof/Config.lean ====
section
/-! DEFINITION. What an implementation of the block fixes and the source leaves open (R6 of 00_scope.md), and what a byte of
memory that nothing has written reads as. The constants the source fixes (R5) stand beside the operations that use them. -/

namespace Sys2Proof

/-- The parameters of R6. The machine carries them as plain data that no step writes, so that a claim about every state is
a claim about every value of them (R26, decisions D18, D19). -/
structure Params where
  /-- `PIN_BASE`, the physical base address of the pin window. -/
  pinBase : Nat
  /-- `PWM_BASE`, the physical base address of the PWM window. -/
  pwmBase : Nat
  /-- `GPIO_OUT_CODE`, the pin function code of a plain GPIO output. -/
  gpioOutCode : BitVec 3
  deriving DecidableEq, Repr

/-- Size of a register window in bytes (R5). -/
def windowBytes : Nat := 4096

/-- `PWM_FUNC_CODE` (R5, R22). -/
def pwmFuncCode : BitVec 3 := 0b011

/-- What R6 and R37 demand of the parameters: bases are multiples of 4096, the windows do not overlap, and the GPIO code
differs from the PWM code. -/
abbrev Params.Legal (p : Params) : Prop :=
  p.pinBase % windowBytes = 0 ∧ p.pwmBase % windowBytes = 0 ∧ p.pinBase ≠ p.pwmBase ∧ p.gpioOutCode ≠ pwmFuncCode

/-- The parameters `State.reset` carries. PRESUMED (assumption log 3 and 4): `GPIO_OUT_CODE = 0b001` is the spec's stated
default and the bases are its example instantiation, both from general knowledge of the Allwinner H3 (G1, G2). -/
def presumedParams : Params := { pinBase := 0x01C20000, pwmBase := 0x01C21000, gpioOutCode := 0b001 }

/-- What a byte of memory that nothing has written reads as. DESIGN CHOICE (assumption log 1): the spec says any value. -/
def unwrittenByte : Byte := 0

end Sys2Proof
end

