-- ==== Sys2Proof/Syntax.lean ====
section
/-! DEFINITION. The six commands of spec/opcode_table.json (R2, R55). -/

namespace Sys2Proof

/-- One constructor per row of the opcode table. Operands are the plain numbers the calculator works on (R7, R52, R53:
unsigned, taken as they stand); which numbers a command word can spell is `Instr.wellFormed`. -/
inductive Instr where
  /-- `INIT f` (R113): configure for `f` hertz. -/
  | init (f : Nat)
  /-- `CFGPS` (R115): rewrite the prescaler field. -/
  | cfgps
  /-- `RUN p` (R117): enable the output at `p` percent. -/
  | run (p : Nat)
  /-- `STOP` (R120): revert the pin to GPIO low and disable the channel. -/
  | stop
  /-- `SETDUTY p` (R123): change the duty percentage. -/
  | setduty (p : Nat)
  /-- `RESET f` (R125): change the frequency. A command, not the hardware reset of R160. -/
  | reset (f : Nat)
  deriving DecidableEq, Repr

end Sys2Proof
end

