-- ==== Sys2Proof/Machine/State.lean ====
section
/-! DEFINITION. The machine's state: the block's registers and sequencer (R11 to R24 of 10_state.md), the memory that holds
the target registers (R20 to R23, R30), and, as plain data, the parameters and inputs that R26 leaves outside the block. -/

namespace Sys2Proof.Machine

/-- The two register windows (R30). -/
inductive Window where
  /-- The pin-control block. -/
  | pin
  /-- The PWM-control block. -/
  | pwm
  deriving DecidableEq, Repr

/-- The result codes of `err` (R19, R148). Codes 6 and 7 never occur, so no constructor stands for them. -/
inductive ErrCode where
  /-- 0: the body ran to its end. -/
  | eOk
  /-- 1: the word spells no command. -/
  | eIllegal
  /-- 2: an operand is out of its legal range. -/
  | eInput
  /-- 3: `configured` is wrong for the command. -/
  | eState
  /-- 4: an `Acquire` failed. -/
  | eHwAccess
  /-- 5: the block is faulted. -/
  | eFaulted
  deriving DecidableEq, Repr

/-- What the environment does with the port operation the block issues next (R26, R32, R41, R147): the port's answer, and
what other agents write in the gap before it. -/
inductive Answer where
  /-- The operation completes; an `Acquire` answers `ok`. -/
  | ok
  /-- An `Acquire` answers `fail` (R32). `Rd`, `Wr` and `Release` never fail (R33, R147), so for them it reads as `ok`. -/
  | fail
  /-- The port has not answered yet (R147): the block waits with `busy = 1` and the other agents may act. -/
  | wait
  /-- Other agents write these bytes in the gap before the operation (R41), which then completes as at `ok`. Each operation
  has its own answer, so each gap of a command has its own writes (assumption log 6). -/
  | after (cells : List Host.Cell)
  /-- A `Rd` returns `v` whatever the store holds, and reading changes these bytes: a register that is no plain store (R26,
  R36; what `PlainStore` of R175 excludes, assumption log 7). The other operations return no word: for them it reads as
  `ok`. -/
  | reads (v : Word) (sideEffects : List Host.Cell)
  deriving DecidableEq, Repr

/-- What another agent does (R10, R61): the host at the command port or the reset input, the environment in memory. -/
inductive Input where
  /-- The host presents a command word and holds it until it is accepted (R58). -/
  | command (c : Word)
  /-- The host asserts hardware reset (R160, R161). -/
  | hardReset
  /-- Another agent writes one byte of physical memory (R41) before the block does anything more. A write that comes after
  a waiting block has gone on stands with the port operation it precedes (`Answer.after`). -/
  | envWrite (cell : Host.Cell)
  deriving DecidableEq, Repr

/-- The events R44 asks a model to record. -/
inductive TraceEvent where
  /-- `Acquire(w)` with its answer. -/
  | acquire (w : Window) (ok : Bool)
  /-- `Rd(w, off)` with the word returned. -/
  | rd (w : Window) (off : Nat) (v : Word)
  /-- `Wr(w, off, v)`. -/
  | wr (w : Window) (off : Nat) (v : Word)
  /-- `Release(w)`. -/
  | release (w : Window)
  /-- The end of a command with its result code. -/
  | done (e : ErrCode)
  deriving DecidableEq, Repr

/-- Why a step stops with a fault. No command of the block does: the fatal fault of R145 is a next state. -/
inductive Fault where
  /-- Raised by a step at a state that is busy while `cur_cmd` and `ustep` name no port operation still to be done. No run
  reaches such a state (R112). Safe: the model stops where the spec describes no machine (assumption log 12). -/
  | sequencerLost
  deriving DecidableEq, Repr

/-- Why a step is refused by the model. A command the block refuses (R140) is a next state, not this. -/
inductive Refusal where
  /-- An instruction of the opcode table with no meaning yet. Raised by no arm of this model. Safe: it stops. -/
  | notModelled (mnemonic : String)
  deriving DecidableEq, Repr

/-- Physical memory as (address, byte) pairs in one canonical form: addresses strictly rising, no entry equal to what an
unlisted address reads as. -/
abbrev Memory := List Host.Cell

/-- The whole system of R10. -/
structure State where
  /-- R11, 28 bits. -/
  frequencyHz : BitVec 28
  /-- R12, 4 bits. -/
  prescalerCode : BitVec 4
  /-- R13, 16 bits. -/
  periodTicks : BitVec 16
  /-- R14, 16 bits. -/
  dutyTicks : BitVec 16
  /-- R15, 7 bits. -/
  dutyPct : BitVec 7
  /-- R16: Stopped or Running. -/
  isRunning : Bool
  /-- R17: an `INIT` has completed since hardware reset. -/
  configured : Bool
  /-- R18: the sticky fatal fault. -/
  faulted : Bool
  /-- R19: the result of the last command. -/
  err : ErrCode
  /-- R24, R58: a command is executing. -/
  busy : Bool
  /-- R24: the accepted command word. -/
  curCmd : Word
  /-- R24, R112: port operations of the current command already completed. -/
  ustep : Nat
  /-- R24: the word read by the `Rd` half of an RMW. -/
  tmp : Word
  /-- R24: the window whose access group is open. -/
  held : Option Window
  /-- R30: the physical address space, the four target registers of R37 among it. -/
  mem : Memory
  /-- R6, R26: parameters, written by no step. -/
  params : Params
  /-- R26, R32, R41: what the environment does with the coming port operations, the next one first. -/
  answers : List Answer
  /-- What it does once `answers` is used up. -/
  restAnswer : Answer
  /-- R26, R61: what the host and the environment do, the next event first. -/
  inputs : List Input
  /-- R44: the events so far, the oldest first. -/
  trace : List TraceEvent
  deriving DecidableEq, Repr

/-- Right after hardware reset (R28). The spec states every block register but `cur_cmd`, `ustep`, `tmp` (assumption log 2)
and no contents of memory (log 1); the parameters, the port and the inputs are the environment's (logs 3, 4, 5, 8). -/
def State.reset : State where
  frequencyHz := 0
  prescalerCode := 0
  periodTicks := 0
  dutyTicks := 0
  dutyPct := 0
  isRunning := false
  configured := false
  faulted := false
  err := .eOk
  busy := false
  curCmd := 0
  ustep := 0
  tmp := 0
  held := none
  mem := []
  params := presumedParams
  answers := []
  restAnswer := .ok
  inputs := []
  trace := []

end Sys2Proof.Machine
end

