-- ==== Sys2Proof/Machine/Calculator.lean ====
section
/-! DEFINITION. The calculator (R70 to R80 of 40_calculator.md): exact arithmetic on naturals; a result is narrowed only where
a register receives it. -/

namespace Sys2Proof.Machine

/-- One entry of the prescaler table. -/
structure PrescalerRow where
  code : BitVec 4
  divider : Nat
  deriving DecidableEq, Repr

/-- A candidate of the selection loop: its code, quotient and score (R74). -/
structure Candidate where
  code : BitVec 4
  quotient : Nat
  score : Nat
  deriving DecidableEq, Repr

/-- What `Select` returns (R74). -/
structure Selection where
  code : BitVec 4
  period : Nat
  fellBack : Bool
  deriving DecidableEq, Repr

/-- `BASE_CLOCK_HZ` (R5). -/
def baseClockHz : Nat := 24000000

/-- `MIN_TICKS` (R5). -/
def minTicks : Nat := 200

/-- `FALLBACK_CODE` (R5). -/
def fallbackCode : BitVec 4 := 0b1111

/-- The eleven pairs of R70, in the iteration order of R73: ascending divider. -/
def prescalerTable : List PrescalerRow :=
  [⟨0b1111, 1⟩, ⟨0b0000, 120⟩, ⟨0b0001, 180⟩, ⟨0b0010, 240⟩, ⟨0b0011, 360⟩, ⟨0b0100, 480⟩,
   ⟨0b1000, 12000⟩, ⟨0b1001, 24000⟩, ⟨0b1010, 36000⟩, ⟨0b1011, 48000⟩, ⟨0b1100, 72000⟩]

/-- `divider(code)`, defined only for the keys of the table (R70, R71). -/
def divider (code : BitVec 4) : Option Nat :=
  (prescalerTable.find? fun r => r.code == code).map (·.divider)

/-- `q(c, f) = BASE_CLOCK_HZ // divider(c) // f` (R72). -/
def quotient (d f : Nat) : Nat := baseClockHz / d / f

/-- One turn of the loop of R74: an eligible candidate replaces the running best only on a strictly smaller score (R73). -/
def selectTurn (f : Nat) (best : Option Candidate) (r : PrescalerRow) : Option Candidate :=
  let q := quotient r.divider f
  if minTicks ≤ q then
    match best with
    | none => some ⟨r.code, q, q - minTicks⟩
    | some b => if q - minTicks < b.score then some ⟨r.code, q, q - minTicks⟩ else some b
  else best

/-- `Select` over a table in a given iteration order (R73, R74); with no eligible candidate, the divide-by-1 fallback. -/
def selectFrom (order : List PrescalerRow) (f : Nat) : Selection :=
  match order.foldl (selectTurn f) none with
  | some b => ⟨b.code, b.quotient, false⟩
  | none => ⟨fallbackCode, quotient 1 f, true⟩

/-- `Select(f)` (R74). -/
def select (f : Nat) : Selection := selectFrom prescalerTable f

/-- `DutyTicks(period, pct) = period * pct // 100` (R77). -/
def dutyTicksOf (period pct : Nat) : Nat := period * pct / 100

/-- `Pack(period, duty)`: the period in the high half, the duty in the low half (R78). -/
def pack (period duty : BitVec 16) : Word := period ++ duty

end Sys2Proof.Machine
end

