-- ==== Sys2Proof/WellFormed.lean ====
section
/-! DEFINITION. Which commands a command word can spell (R52, R53). A well-formed command with an operand outside its legal
range is still well formed: it is refused by value, not by spelling (R52, R53, R57). -/

namespace Sys2Proof

/-- Shape F has a 28-bit operand (R52), shape P a 7-bit one (R53), shape Z none (R54). -/
def Instr.wellFormed : Instr → Bool
  | .init f => decide (f < 2 ^ 28)
  | .cfgps => true
  | .run p => decide (p < 2 ^ 7)
  | .stop => true
  | .setduty p => decide (p < 2 ^ 7)
  | .reset f => decide (f < 2 ^ 28)

end Sys2Proof
end

