-- ==== Sys2Proof/Decode.lean ====
section
/-! DEFINITION. The command word (R50 to R56 of 30_encoding.md): the decoder, total on all 2^32 words and rejecting by
name, then the encoder written from the same table. A word arrives whole on the command port, so no byte order is
involved (R34, R43). -/

namespace Sys2Proof

/-- Why a word is illegal (R56). -/
inductive DecodeError where
  /-- `OP` is 0 or 7 to 15: no row of R55 has it. -/
  | unusedOpcode
  /-- A reserved operand bit of shape P or Z is one (R53, R54). -/
  | reservedBits
  deriving DecidableEq, Repr

/-- `OP = [31:28]` (R51). -/
def opField (c : Word) : BitVec 4 := c.extractLsb' 28 4

/-- `ARG = [27:0]` (R51). -/
def argField (c : Word) : BitVec 28 := c.extractLsb' 0 28

/-- The operand of shape P, `ARG[6:0]` (R53). -/
def pctField (c : Word) : BitVec 7 := c.extractLsb' 0 7

/-- The reserved bits of shape P, `ARG[27:7]` (R53). -/
def pctReserved (c : Word) : BitVec 21 := c.extractLsb' 7 21

/-- A shape Z word spells `i` when its whole operand field is zero (R54). -/
def decodeZ (i : Instr) (c : Word) : Except DecodeError Instr :=
  if argField c = 0 then .ok i else .error .reservedBits

/-- A shape P word spells `mk pct` when its reserved bits are zero (R53). -/
def decodeP (mk : Nat → Instr) (c : Word) : Except DecodeError Instr :=
  if pctReserved c = 0 then .ok (mk (pctField c).toNat) else .error .reservedBits

/-- A shape F word always spells a command (R52). -/
def decodeF (mk : Nat → Instr) (c : Word) : Except DecodeError Instr :=
  .ok (mk (argField c).toNat)

/-- The command a word spells (R55), or why it spells none (R56). -/
def decode (c : Word) : Except DecodeError Instr :=
  if opField c = 1 then decodeF .init c
  else if opField c = 2 then decodeZ .cfgps c
  else if opField c = 3 then decodeP .run c
  else if opField c = 4 then decodeZ .stop c
  else if opField c = 5 then decodeP .setduty c
  else if opField c = 6 then decodeF .reset c
  else .error .unusedOpcode

/-- `{OP, ARG}` (R7, R51): the opcode in the high four bits, the operand field below. -/
def commandWord (op : BitVec 4) (arg : BitVec 28) : Word := BitVec.ofNat 32 (op.toNat * 2 ^ 28 + arg.toNat)

/-- The command word of a well-formed command (R51 to R55). -/
def encode : Instr → Word
  | .init f => commandWord 1 (BitVec.ofNat 28 f)
  | .cfgps => commandWord 2 0
  | .run p => commandWord 3 (BitVec.ofNat 28 (p % 2 ^ 7))
  | .stop => commandWord 4 0
  | .setduty p => commandWord 5 (BitVec.ofNat 28 (p % 2 ^ 7))
  | .reset f => commandWord 6 (BitVec.ofNat 28 f)

/-- One row of the opcode map of R55: a word `c` spells the row's command exactly when `c & mask = match`. -/
structure OpcodeRow where
  mask : Word
  pattern : Word
  deriving DecidableEq, Repr

/-- The row of R55 of each command. -/
def opcodeRow : Instr → OpcodeRow
  | .init _ => ⟨0xF0000000, 0x10000000⟩
  | .cfgps => ⟨0xFFFFFFFF, 0x20000000⟩
  | .run _ => ⟨0xFFFFFF80, 0x30000000⟩
  | .stop => ⟨0xFFFFFFFF, 0x40000000⟩
  | .setduty _ => ⟨0xFFFFFF80, 0x50000000⟩
  | .reset _ => ⟨0xF0000000, 0x60000000⟩

/-- The opcode map of R55, in its order. -/
def opcodeMap : List OpcodeRow :=
  [opcodeRow (.init 0), opcodeRow .cfgps, opcodeRow (.run 0), opcodeRow .stop, opcodeRow (.setduty 0),
   opcodeRow (.reset 0)]

/-- `c & mask = match` (R55). -/
def OpcodeRow.spells (r : OpcodeRow) (c : Word) : Bool := c &&& r.mask == r.pattern

/-- The textual form of a command, for listings (R59). -/
def commandText : Instr → String
  | .init f => "INIT " ++ toString f
  | .cfgps => "CFGPS"
  | .run p => "RUN " ++ toString p
  | .stop => "STOP"
  | .setduty p => "SETDUTY " ++ toString p
  | .reset f => "RESET " ++ toString f

/-- The expansion of the pseudo-command `PWMSTART f, d` (R60), after the hardware reset that precedes it. -/
def pwmStart (f d : Nat) : List Instr := [.init f, .setduty d, .run d]

/-- The expansion of the pseudo-command `PWMSTOP f` (R60), after the hardware reset that precedes it. -/
def pwmStop (f : Nat) : List Instr := [.init f, .stop]

/-- The word whose low `nbits` bits are those of `w` and whose other bits are zero. -/
def tableWord (nbits w : Nat) : Word := BitVec.ofNat 32 (w % 2 ^ nbits)

/-- What the decoder reads from an opcode-table word. -/
def decodeTableWord (nbits w : Nat) : Option Instr := (decode (tableWord nbits w)).toOption

end Sys2Proof
end

