-- ==== Sys2Proof/Machine/Operands.lean ====
section
/-! DEFINITION. Operands: the legal operand values of the commands (R57, R141), the four target registers (R37), the register
fields as mask descriptors (R93) and the six field updates that the RMW engine performs (R94 to R100). -/

namespace Sys2Proof.Machine

/-- A field update of the RMW engine. `U_PERIOD` (R97) is no RMW and has a port operation of its own. -/
inductive Update where
  /-- `U_PRESCAL` (R94). -/
  | prescal
  /-- `U_PINPWM` (R95). -/
  | pinPwm
  /-- `U_ENABLE` (R96). -/
  | enable
  /-- `U_PINGPIO` (R98). -/
  | pinGpio
  /-- `U_PINLOW` (R99). -/
  | pinLow
  /-- `U_DISABLE` (R100). -/
  | disable
  deriving DecidableEq, Repr

/-- The largest legal frequency (R57). -/
def maxFreq : Nat := 24000000

/-- The largest legal percentage (R57). -/
def maxPct : Nat := 100

/-- `1 <= f <= 24000000` (R57, R141). -/
def freqLegal (f : Nat) : Bool := decide (1 ≤ f) && decide (f ≤ maxFreq)

/-- `0 <= p <= 100` (R57, R141). -/
def pctLegal (p : Nat) : Bool := decide (p ≤ maxPct)

/-- The operand is in its legal range (R57); shape Z has none. -/
def operandLegal : Instr → Bool
  | .init f => freqLegal f
  | .cfgps => true
  | .run p => pctLegal p
  | .stop => true
  | .setduty p => pctLegal p
  | .reset f => freqLegal f

/-- Byte offset of `PWM_CTRL` in the PWM window (R20). -/
def offPwmCtrl : Nat := 0x400

/-- Byte offset of `PWM_PERIOD` in the PWM window (R21). -/
def offPwmPeriod : Nat := 0x404

/-- Byte offset of `PIN_CFG` in the pin window (R22). -/
def offPinCfg : Nat := 0x800

/-- Byte offset of `PIN_DAT` in the pin window (R23). -/
def offPinDat : Nat := 0x810

/-- Mask of `PRESCAL = PWM_CTRL[3:0]` (R93). -/
def maskPrescal : Word := 0x0000000F

/-- Mask of `CH_EN = PWM_CTRL[6:4]` (R93). -/
def maskChEn : Word := 0x00000070

/-- Mask of `PIN_FUNC = PIN_CFG[22:20]` (R93). -/
def maskPinFunc : Word := 0x00700000

/-- Mask of `PIN_OUT = PIN_DAT[5]` (R93). -/
def maskPinOut : Word := 0x00000020

/-- The window an update works on (R93). -/
def updateWindow : Update → Window
  | .prescal => .pwm
  | .pinPwm => .pin
  | .enable => .pwm
  | .pinGpio => .pin
  | .pinLow => .pin
  | .disable => .pwm

/-- The byte offset an update works on (R93). -/
def updateOffset : Update → Nat
  | .prescal => offPwmCtrl
  | .pinPwm => offPinCfg
  | .enable => offPwmCtrl
  | .pinGpio => offPinCfg
  | .pinLow => offPinDat
  | .disable => offPwmCtrl

/-- The mask of the field an update writes (R93). -/
def updateMask : Update → Word
  | .prescal => maskPrescal
  | .pinPwm => maskPinFunc
  | .enable => maskChEn
  | .pinGpio => maskPinFunc
  | .pinLow => maskPinOut
  | .disable => maskChEn

/-- The new field value, already shifted into place (R94 to R96, R98 to R100). -/
def updateValue (s : State) : Update → Word
  | .prescal => s.prescalerCode.zeroExtend 32
  | .pinPwm => pwmFuncCode.zeroExtend 32 <<< 20
  | .enable => 0x00000070
  | .pinGpio => s.params.gpioOutCode.zeroExtend 32 <<< 20
  | .pinLow => 0
  | .disable => 0

end Sys2Proof.Machine
end

