-- ==== Sys2Proof/Machine/Flags.lean ====
section
/-! DEFINITION. The flags `faulted`, `configured`, `is_running` as the block reads them: admission (R143 of
60_exceptions.md), the control states of R128, and the status outputs the host sees (R29). -/

namespace Sys2Proof.Machine

/-- The control states of R128. -/
inductive ControlState where
  | unconfigured
  | stopped
  | running
  | faulted
  deriving DecidableEq, Repr

/-- The status outputs (R29). -/
structure Status where
  busy : Bool
  err : BitVec 3
  faulted : Bool
  configured : Bool
  isRunning : Bool
  frequencyHz : BitVec 28
  prescalerCode : BitVec 4
  periodTicks : BitVec 16
  dutyTicks : BitVec 16
  dutyPct : BitVec 7
  deriving DecidableEq, Repr

/-- The number of a result code (R19, R148). -/
def errBits : ErrCode → BitVec 3
  | .eOk => 0
  | .eIllegal => 1
  | .eInput => 2
  | .eState => 3
  | .eHwAccess => 4
  | .eFaulted => 5

/-- `(configured, is_running)` with `faulted` overriding (R128). -/
def controlState (s : State) : ControlState :=
  if s.faulted then .faulted
  else if s.configured then (if s.isRunning then .running else .stopped)
  else .unconfigured

/-- `configured` is as the command needs it: clear for `INIT`, set for the other five (R142). -/
def stateAdmits (i : Instr) (s : State) : Bool :=
  match i with
  | .init _ => !s.configured
  | .cfgps => s.configured
  | .run _ => s.configured
  | .stop => s.configured
  | .setduty _ => s.configured
  | .reset _ => s.configured

/-- `Admit(c)`, the single place where refusals are decided, in the priority order of R143. -/
def admission (c : Except DecodeError Instr) (s : State) : ErrCode :=
  if s.faulted then .eFaulted
  else
    match c with
    | .error _ => .eIllegal
    | .ok i =>
      if stateAdmits i s then (if operandLegal i then .eOk else .eInput)
      else .eState

/-- What the host can observe at any time (R29). -/
def State.status (s : State) : Status where
  busy := s.busy
  err := errBits s.err
  faulted := s.faulted
  configured := s.configured
  isRunning := s.isRunning
  frequencyHz := s.frequencyHz
  prescalerCode := s.prescalerCode
  periodTicks := s.periodTicks
  dutyTicks := s.dutyTicks
  dutyPct := s.dutyPct

end Sys2Proof.Machine
end

