-- ==== Sys2Proof/Machine/Ops.lean ====
section
/-! DEFINITION. The named operations over memory and registers: physical memory (R30 to R37), the memory port (R32, R33), the
RMW word (R91), the beginning and the end of a command (R110), and the two abnormal ends, `refuse` (R140) and `fatal`
(R145). Neither saves a context, so there is no return operation (R151); hardware reset (R160) is what clears a fault. -/

namespace Sys2Proof.Machine

/-- The byte at a physical address. -/
def readByte : Memory → Nat → Byte
  | [], _ => unwrittenByte
  | c :: m, a => if c.1 = a then c.2 else readByte m a

/-- Put a byte in front of the entries above it, unless it is what an unlisted address reads as. -/
def consByte (a : Nat) (b : Byte) (m : Memory) : Memory := if b = unwrittenByte then m else (a, b) :: m

/-- Replace the byte at a physical address, keeping the canonical form. -/
def writeByte : Memory → Nat → Byte → Memory
  | [], a, b => consByte a b []
  | c :: m, a, b =>
    if a < c.1 then consByte a b (c :: m)
    else if a = c.1 then consByte a b m
    else c :: writeByte m a b

/-- Replace several bytes, one after another. -/
def writeBytes (m : Memory) (cells : List Host.Cell) : Memory := cells.foldl (fun m c => writeByte m c.1 c.2) m

/-- The canonical form: addresses strictly rising, no entry equal to what an unlisted address reads as. -/
abbrev Memory.wf (m : Memory) : Prop :=
  m.Pairwise (fun x y => x.1 < y.1) ∧ ∀ c ∈ m, c.2 ≠ unwrittenByte

/-- Byte `k` of a word, bits `[8k+7 : 8k]` (R34). -/
def wordByte (v : Word) (k : Nat) : Byte := v.extractLsb' (8 * k) 8

/-- `MemRead(addr, 4)`, little-endian (R33, R34). -/
def readWord (m : Memory) (a : Nat) : Word :=
  readByte m (a + 3) ++ readByte m (a + 2) ++ readByte m (a + 1) ++ readByte m a

/-- `MemWrite(addr, 4, v)`, little-endian (R33, R34). -/
def writeWord (m : Memory) (a : Nat) (v : Word) : Memory :=
  writeByte (writeByte (writeByte (writeByte m a (wordByte v 0)) (a + 1) (wordByte v 1)) (a + 2) (wordByte v 2))
    (a + 3) (wordByte v 3)

/-- `BASE[w]` (R8). -/
def windowBase (p : Params) : Window → Nat
  | .pin => p.pinBase
  | .pwm => p.pwmBase

/-- The physical address `BASE[w] + off` (R33). -/
def portAddr (p : Params) (w : Window) (off : Nat) : Nat := windowBase p w + off

/-- `PWM_CTRL` (R20). -/
def State.pwmCtrl (s : State) : Word := readWord s.mem (portAddr s.params .pwm offPwmCtrl)

/-- `PWM_PERIOD` (R21). -/
def State.pwmPeriod (s : State) : Word := readWord s.mem (portAddr s.params .pwm offPwmPeriod)

/-- `PIN_CFG` (R22). -/
def State.pinCfg (s : State) : Word := readWord s.mem (portAddr s.params .pin offPinCfg)

/-- `PIN_DAT` (R23). -/
def State.pinDat (s : State) : Word := readWord s.mem (portAddr s.params .pin offPinDat)

/-- Append an event to the trace (R44). -/
def record (e : TraceEvent) (s : State) : State := { s with trace := s.trace ++ [e] }

/-- What the environment does with the operation issued next. -/
def nextAnswer (s : State) : Answer :=
  match s.answers with
  | [] => s.restAnswer
  | a :: _ => a

/-- The answer has been given. -/
def dropAnswer (s : State) : State := { s with answers := s.answers.tail }

/-- `Acquire(w)` answered `ok` (R32). -/
def portAcquire (w : Window) (s : State) : State := record (.acquire w true) { s with held := some w }

/-- `Release(w)` (R32). -/
def portRelease (w : Window) (s : State) : State := record (.release w) { s with held := none }

/-- `tmp <- Rd(w, off)` (R33, R91). -/
def portRd (w : Window) (off : Nat) (s : State) : State :=
  let v := readWord s.mem (portAddr s.params w off)
  record (.rd w off v) { s with tmp := v }

/-- `tmp <- Rd(w, off)` of a register that is no plain store (R26, R36): the word is the environment's, and the read changes
the given bytes. -/
def portRdGiven (w : Window) (off : Nat) (v : Word) (sideEffects : List Host.Cell) (s : State) : State :=
  record (.rd w off v) { s with tmp := v, mem := writeBytes s.mem sideEffects }

/-- `Wr(w, off, v)` (R33). -/
def portWr (w : Window) (off : Nat) (v : Word) (s : State) : State :=
  record (.wr w off v) { s with mem := writeWord s.mem (portAddr s.params w off) v }

/-- The word an RMW writes back: `(old & ~mask) | val` (R91). -/
def mergeField (mask val old : Word) : Word := (old &&& ~~~mask) ||| val

/-- Accept a command word (R58, R110, R112): `busy <- 1` and the sequencer at its first port operation. -/
def accept (c : Word) (s : State) : State := { s with busy := true, curCmd := c, ustep := 0 }

/-- The end of a command with result `e` (R110): `err <- e ; busy <- 0`. -/
def finish (e : ErrCode) (s : State) : State := record (.done e) { s with err := e, busy := false }

/-- `refuse(E)` (R140): nothing else changes. -/
def refuse (e : ErrCode) (s : State) : State := finish e s

/-- A body that ran to its end (R110). -/
def complete (s : State) : State := finish .eOk s

/-- `fatal(E_HWACCESS)` at an `Acquire(w)` that answered `fail` (R145). -/
def fatal (w : Window) (s : State) : State :=
  finish .eHwAccess (record (.acquire w false) { s with faulted := true, held := none })

/-- `duty_ticks <- DutyTicks(period_ticks, duty_pct)` (R77, R97, R123, R126). -/
def latchDuty (s : State) : State :=
  { s with dutyTicks := BitVec.ofNat 16 (dutyTicksOf s.periodTicks.toNat s.dutyPct.toNat) }

/-- Load what `Select(f)` answers (R113, R125). -/
def loadSelection (f : Nat) (s : State) : State :=
  let r := select f
  { s with frequencyHz := BitVec.ofNat 28 f, prescalerCode := r.code, periodTicks := BitVec.ofNat 16 r.period }

/-- Hardware reset (R160, R161): the block registers of R28; no port operation, no target register changes, and an open
group is not released. `cur_cmd`, `ustep`, `tmp` are unspecified by R28: DESIGN CHOICE 0 (assumption log 2). -/
def hardReset (s : State) : State :=
  { s with
    frequencyHz := 0, prescalerCode := 0, periodTicks := 0, dutyTicks := 0, dutyPct := 0,
    isRunning := false, configured := false, faulted := false, err := .eOk,
    busy := false, curCmd := 0, ustep := 0, tmp := 0, held := none }

/-- Another agent writes one byte of physical memory (R41). -/
def envWrite (c : Host.Cell) (s : State) : State := { s with mem := writeByte s.mem c.1 c.2 }

/-- Other agents write bytes of physical memory between two port operations (R41). -/
def envWrites (cells : List Host.Cell) (s : State) : State := { s with mem := writeBytes s.mem cells }

/-- The word `c` presented to an idle block spells no command: it is accepted and refused (R56, R58, R143). -/
def refuseIllegal (c : Word) (s : State) : State :=
  refuse (admission (decode c) s) (accept c s)

end Sys2Proof.Machine
end

