-- ==== Sys2Proof/Machine/Sequencer.lean ====
section
/-! DEFINITION. The control sequencer (R110 to R112 of 42_commands.md): the port operations of the three sequences (R101 to
R104 of 41_rmw_engine.md), what each does, and the run through a command's list, which the port can hold up (R147) or a
failing `Acquire` cut short (R145). -/

namespace Sys2Proof.Machine

/-- A port operation as the sequencer issues it. -/
inductive PortOp where
  /-- `Acquire(w)`. -/
  | acquire (w : Window)
  /-- `Release(w)`. -/
  | release (w : Window)
  /-- `tmp <- Rd(w, off)`, the first half of an RMW. -/
  | rd (w : Window) (off : Nat)
  /-- `Wr(w, off, (tmp & ~mask) | val)`, the second half of the RMW of an update. -/
  | wrField (u : Update)
  /-- `Wr(PWM, 0x404, Pack(period_ticks, duty_ticks))` (R97). -/
  | wrPeriod
  deriving DecidableEq, Repr

/-- The register lines that follow a port operation in the pseudocode. They are immediate (R111), so they take effect with
the port operation above them, before the next one is issued. -/
inductive After where
  | nothing
  /-- `duty_ticks <- DutyTicks(period_ticks, duty_pct)` (R97). -/
  | latchDuty
  /-- `is_running <- 1` (R103). -/
  | setRunning
  /-- `is_running <- 0` (R104). -/
  | clearRunning
  /-- `configured <- 1` (R113). -/
  | setConfigured
  deriving DecidableEq, Repr

/-- One entry of a command's list of port operations (R112). -/
structure MicroOp where
  port : PortOp
  after : After
  deriving DecidableEq, Repr

/-- `RMW` of an update (R91): exactly one `Rd` and one `Wr`, in that order. -/
def rmw (u : Update) (after : After) : List MicroOp :=
  [⟨.rd (updateWindow u) (updateOffset u), .nothing⟩, ⟨.wrField u, after⟩]

/-- `SeqPrescaler` (R102), with the line that follows it in the body. -/
def seqPrescaler (after : After) : List MicroOp :=
  [⟨.acquire .pwm, .nothing⟩] ++ rmw .prescal .nothing ++ [⟨.release .pwm, after⟩]

/-- `SeqRun` (R103). -/
def seqRun : List MicroOp :=
  [⟨.acquire .pin, .nothing⟩] ++ rmw .pinPwm .nothing ++ [⟨.release .pin, .nothing⟩] ++
  [⟨.acquire .pwm, .nothing⟩] ++ rmw .enable .latchDuty ++ [⟨.wrPeriod, .nothing⟩] ++ [⟨.release .pwm, .setRunning⟩]

/-- `SeqStop` (R104). -/
def seqStop : List MicroOp :=
  [⟨.acquire .pin, .nothing⟩] ++ rmw .pinGpio .nothing ++ rmw .pinLow .nothing ++ [⟨.release .pin, .nothing⟩] ++
  [⟨.acquire .pwm, .nothing⟩] ++ rmw .disable .nothing ++ [⟨.release .pwm, .clearRunning⟩]

/-- The re-application rule (R129): `SeqRun` exactly when Running. -/
def reapply (isRunning : Bool) : List MicroOp := if isRunning then seqRun else []

/-- The port operations of each command (R112), given `is_running`, which no command changes before its last one. -/
def program (i : Instr) (isRunning : Bool) : List MicroOp :=
  match i with
  | .init _ => seqPrescaler .setConfigured
  | .cfgps => seqPrescaler .nothing
  | .run _ => seqRun
  | .stop => seqStop
  | .setduty _ => reapply isRunning
  | .reset _ => seqPrescaler .nothing ++ reapply isRunning

/-- What the environment does with a given operation: only an `Acquire` can fail (R32, R33, R147), and only a `Rd` returns a
word (R26). -/
def portReply (op : PortOp) (s : State) : Answer :=
  match nextAnswer s with
  | .wait => .wait
  | .ok => .ok
  | .after cells => .after cells
  | .reads v fx =>
    match op with
    | .acquire _ => .ok
    | .release _ => .ok
    | .rd _ _ => .reads v fx
    | .wrField _ => .ok
    | .wrPeriod => .ok
  | .fail =>
    match op with
    | .acquire _ => .fail
    | .release _ => .ok
    | .rd _ _ => .ok
    | .wrField _ => .ok
    | .wrPeriod => .ok

/-- The window of a port operation. -/
def portWindow : PortOp → Window
  | .acquire w => w
  | .release w => w
  | .rd w _ => w
  | .wrField u => updateWindow u
  | .wrPeriod => .pwm

/-- A completed port operation (R32, R33, R91, R97). -/
def perform (op : PortOp) (s : State) : State :=
  match op with
  | .acquire w => portAcquire w s
  | .release w => portRelease w s
  | .rd w off => portRd w off s
  | .wrField u => portWr (updateWindow u) (updateOffset u) (mergeField (updateMask u) (updateValue s u) s.tmp) s
  | .wrPeriod => portWr .pwm offPwmPeriod (pack s.periodTicks s.dutyTicks) s

/-- A completed port operation where a `Rd` meets a register that is no plain store (R36). -/
def performGiven (op : PortOp) (v : Word) (fx : List Host.Cell) (s : State) : State :=
  match op with
  | .rd w off => portRdGiven w off v fx s
  | .acquire _ | .release _ | .wrField _ | .wrPeriod => perform op s

/-- The register lines after a port operation. -/
def applyAfter (a : After) (s : State) : State :=
  match a with
  | .nothing => s
  | .latchDuty => latchDuty s
  | .setRunning => { s with isRunning := true }
  | .clearRunning => { s with isRunning := false }
  | .setConfigured => { s with configured := true }

/-- `ustep` advances by one per port operation (R112). -/
def countStep (s : State) : State := { s with ustep := s.ustep + 1 }

/-- One port operation that completed, with the register lines below it. -/
def advance (op : MicroOp) (s : State) : State := applyAfter op.after (countStep (perform op.port s))

/-- `advance` at a register that is no plain store. -/
def advanceGiven (op : MicroOp) (v : Word) (fx : List Host.Cell) (s : State) : State :=
  applyAfter op.after (countStep (performGiven op.port v fx s))

/-- Run through the rest of a command's list: to its end (`E_OK`), to a failing `Acquire` (R145), or to an operation the
port does not answer yet, where the block waits with `busy = 1` (R147). Other agents' writes land in the gap before the
operation whose answer brings them (R41). -/
def runOps : List MicroOp → State → State
  | [], s => complete s
  | op :: ops, s =>
    match portReply op.port s with
    | .wait => dropAnswer s
    | .fail => fatal (portWindow op.port) (dropAnswer s)
    | .ok => runOps ops (advance op (dropAnswer s))
    | .after cells => runOps ops (advance op (envWrites cells (dropAnswer s)))
    | .reads v fx => runOps ops (advanceGiven op v fx (dropAnswer s))

/-- `Execute(c)` for a word that spells `i` (R110): admission, then the register lines at the head of the body, then its
port operations. -/
def execute (i : Instr) (head : State → State) (s : State) : Host.Outcome State Fault Refusal :=
  let s₁ := accept (encode i) s
  match admission (.ok i) s with
  | .eOk => .next (runOps (program i s₁.isRunning) (head s₁))
  | e => .next (refuse e s₁)

/-- A busy block issues again the port operation it waits for (R112, R147). -/
def resume (s : State) : Host.Outcome State Fault Refusal :=
  match decode s.curCmd with
  | .error _ => .fault .sequencerLost
  | .ok i =>
    match (program i s.isRunning).drop s.ustep with
    | [] => .fault .sequencerLost
    | ops => .next (runOps ops s)

end Sys2Proof.Machine
end

