-- ==== Sys2Proof/Machine/ConfigCommands.lean ====
section
/-! DEFINITION. The commands that write the prescaler: `INIT` (R113, R114), `CFGPS` (R115, R116), `RESET` (R125 to R127). -/

namespace Sys2Proof.Machine

/-- The register lines of `INIT f` above `SeqPrescaler` (R113). -/
def initHead (f : Nat) (s : State) : State :=
  { loadSelection f s with dutyPct := 0, dutyTicks := 0, isRunning := false }

/-- `INIT f` (R113). -/
def execInit (f : Nat) (s : State) : Host.Outcome State Fault Refusal := execute (.init f) (initHead f) s

/-- `CFGPS` (R115): no register line. -/
def execCfgps (s : State) : Host.Outcome State Fault Refusal := execute .cfgps id s

/-- The register lines of `RESET f` above `SeqPrescaler` (R125, R126). -/
def resetHead (f : Nat) (s : State) : State := latchDuty (loadSelection f s)

/-- `RESET f` (R125). -/
def execReset (f : Nat) (s : State) : Host.Outcome State Fault Refusal := execute (.reset f) (resetHead f) s

end Sys2Proof.Machine
end

