-- ==== Sys2Proof/Machine/DriveCommands.lean ====
section
/-! DEFINITION. The commands that drive the output: `RUN` (R117 to R119), `STOP` (R120 to R122), `SETDUTY` (R123, R124). -/

namespace Sys2Proof.Machine

/-- `duty_pct <- p`, the register line of `RUN p` above `SeqRun` (R117). -/
def runHead (p : Nat) (s : State) : State := { s with dutyPct := BitVec.ofNat 7 p }

/-- `RUN p` (R117). -/
def execRun (p : Nat) (s : State) : Host.Outcome State Fault Refusal := execute (.run p) (runHead p) s

/-- `STOP` (R120): no register line above `SeqStop`. -/
def execStop (s : State) : Host.Outcome State Fault Refusal := execute .stop id s

/-- `duty_pct <- p ; duty_ticks <- DutyTicks(period_ticks, p)`, the register lines of `SETDUTY p` (R123). -/
def setdutyHead (p : Nat) (s : State) : State := latchDuty { s with dutyPct := BitVec.ofNat 7 p }

/-- `SETDUTY p` (R123). -/
def execSetduty (p : Nat) (s : State) : Host.Outcome State Fault Refusal := execute (.setduty p) (setdutyHead p) s

end Sys2Proof.Machine
end

