-- ==== Sys2Proof/Machine/Dispatch.lean ====
section
/-! DEFINITION. The meaning of each command, one arm per row of the opcode table. -/

namespace Sys2Proof.Machine

def exec (i : Instr) (s : State) : Host.Outcome State Fault Refusal :=
  match i with
  | .init f => Sys2Proof.Machine.execInit f s
  | .cfgps => Sys2Proof.Machine.execCfgps s
  | .run p => Sys2Proof.Machine.execRun p s
  | .stop => Sys2Proof.Machine.execStop s
  | .setduty p => Sys2Proof.Machine.execSetduty p s
  | .reset f => Sys2Proof.Machine.execReset f s

end Sys2Proof.Machine
end

