-- ==== Sys2Proof/Machine/HostPort.lean ====
section
/-! DEFINITION. The command port and the reset input (R58, R61 of 30_encoding.md): what a step takes up. -/

namespace Sys2Proof.Machine

/-- What a step has to do. -/
inductive Fetched where
  /-- An accepted word spells `i`: execute it. -/
  | run (i : Instr) (s : State)
  /-- The block is busy: issue again the port operation it waits for. -/
  | resume (s : State)
  /-- Nothing to execute: `s` is the next state. -/
  | settled (s : State)
  deriving DecidableEq, Repr

/-- The next event of the outside world. `inputs` lists what happens before the block does anything more; what other agents
write after a waiting block has gone on stands with the port operation it precedes (`Answer.after`), so no order between
writes and port operations is preferred (R41, R150). Hardware reset (R160, R161) and the environment's writes (R41) land whether or not
the block is busy; a command word is taken only while `busy = 0`, and until then the host holds it (R58). With nothing
presented an idle block waits (R160). -/
def fetch (s : State) : Fetched :=
  match s.inputs with
  | [] => if s.busy then .resume s else .settled s
  | .hardReset :: rest => .settled (hardReset { s with inputs := rest })
  | .envWrite cell :: rest => .settled (envWrite cell { s with inputs := rest })
  | .command c :: rest =>
    if s.busy then .resume s
    else
      match decode c with
      | .ok i => .run i { s with inputs := rest }
      | .error _ => .settled (refuseIllegal c { s with inputs := rest })

/-- The host's moves for a list of commands after a hardware reset (R60, R162, R164). -/
def hostRun (is : List Instr) : List Input := .hardReset :: is.map fun i => .command (encode i)

end Sys2Proof.Machine
end

