-- ==== Sys2Proof/Machine/Step.lean ====
section
/-! DEFINITION. One step of the system: one external event, one command, or one more try of a busy block. -/

namespace Sys2Proof.Machine

/-- One step (R10, R58, R110). A command whose port operations are all answered is one step (R24); where the port does not
answer, the step ends between two port operations and the other agents may act there (R41, R147). -/
def step (s : State) : Host.Outcome State Fault Refusal :=
  match fetch s with
  | .run i t => exec i t
  | .resume t => resume t
  | .settled t => .next t

/-- The host presents the word to an idle block, before anything else that is to come (assumption log 8). -/
def State.withFetchWord (s : State) (nbits w : Nat) : State :=
  { s with busy := false, inputs := .command (tableWord nbits w) :: s.inputs }

end Sys2Proof.Machine
end

