-- ==== Sys2Proof/Safety.lean ====
section
/-! DEFINITION. The terms claims use: the launch premises of R175, the invariant of R27 with what the sequencer rules (R24,
R32, R112) add to it, and words for what a command leaves alone. -/

namespace Sys2Proof.Machine

/-- The port's answer to the `k`-th port operation from now. -/
def State.answer (s : State) (k : Nat) : Answer := s.answers.getD k s.restAnswer

/-- The next `n` port operations are all answered, and no `Acquire` among them fails. -/
abbrev AnswersOk (n : Nat) (s : State) : Prop := ∀ k < n, s.answer k = .ok

/-- `AcquireOk` (R175): no `Acquire` ever fails. -/
abbrev AcquireOk (s : State) : Prop := (∀ a ∈ s.answers, a ≠ .fail) ∧ s.restAnswer ≠ .fail

/-- `PortAnswers` (R175): every port operation completes, and none late. -/
abbrev PortAnswers (s : State) : Prop := (∀ a ∈ s.answers, a ≠ .wait) ∧ s.restAnswer ≠ .wait

/-- No write of another agent comes next at a busy block. -/
def NoWriteNext (s : State) : Prop := s.busy = true → ∀ cell rest, s.inputs ≠ .envWrite cell :: rest

/-- No hardware reset comes next at a busy block. -/
def NoResetNext (s : State) : Prop := s.busy = true → ∀ rest, s.inputs ≠ .hardReset :: rest

/-- `Admit` finds nothing against the command (R143). -/
abbrev Admitted (i : Instr) (s : State) : Prop := admission (.ok i) s = .eOk

/-- Address `a` is one of the four bytes of the word at `w`. -/
abbrev InWord (a w : Nat) : Prop := w ≤ a ∧ a < w + 4

/-- Physical address of `PWM_CTRL` (R37). -/
abbrev addrPwmCtrl (s : State) : Nat := portAddr s.params .pwm offPwmCtrl

/-- Physical address of `PWM_PERIOD` (R37). -/
abbrev addrPwmPeriod (s : State) : Nat := portAddr s.params .pwm offPwmPeriod

/-- Physical address of `PIN_CFG` (R37). -/
abbrev addrPinCfg (s : State) : Nat := portAddr s.params .pin offPinCfg

/-- Physical address of `PIN_DAT` (R37). -/
abbrev addrPinDat (s : State) : Nat := portAddr s.params .pin offPinDat

/-- Address `a` is a byte of one of the four target registers (R37). -/
abbrev InTargets (s : State) (a : Nat) : Prop :=
  InWord a (addrPwmCtrl s) ∨ InWord a (addrPwmPeriod s) ∨ InWord a (addrPinCfg s) ∨ InWord a (addrPinDat s)

/-- What other agents write with an answer (R41). -/
def Answer.others : Answer → List Host.Cell
  | .ok => []
  | .fail => []
  | .wait => []
  | .after cells => cells
  | .reads _ _ => []

/-- What a read changes with an answer (R36). -/
def Answer.sideEffects : Answer → List Host.Cell
  | .ok => []
  | .fail => []
  | .wait => []
  | .after _ => []
  | .reads _ fx => fx

/-- The answers to come, the rest answer among them. -/
abbrev State.coming (s : State) : List Answer := s.restAnswer :: s.answers

/-- Some answer to come changes the byte at `a` without the block writing it. -/
def ChangedByOthers (s : State) (a : Nat) : Prop := ∃ x ∈ s.coming, ∃ c ∈ x.others ++ x.sideEffects, c.1 = a

/-- No answer to come has another agent write a target register. -/
abbrev NoTargetWrites (s : State) : Prop := ∀ x ∈ s.coming, ∀ c ∈ x.others, ¬ InTargets s c.1

/-- `NoInterference` (R175): no agent but the block writes a target register while `busy = 1`, neither in a gap between two
port operations of one step nor, anywhere on the run from here, at a block that waits. -/
def NoInterference (s : State) : Prop :=
  NoTargetWrites s ∧
  ∀ (n : Nat) (t : State), Sys2Proof.core.run n s = .next t → t.busy = true →
    ∀ cell rest, t.inputs = .envWrite cell :: rest → ¬ InTargets s cell.1

/-- `NoResetWhileBusy` (R175), anywhere on the run from here. -/
def NoResetWhileBusy (s : State) : Prop :=
  ∀ (n : Nat) (t : State), Sys2Proof.core.run n s = .next t → NoResetNext t

/-- `PlainStore` (R175, R36): a `Rd` returns the word last written and has no side effect. -/
abbrev PlainStore (s : State) : Prop := ∀ x ∈ s.coming, ∀ v fx, x ≠ .reads v fx

/-- `PortAnswers` (R175) where late answers are allowed: every port operation completes in the end. -/
abbrev PortAnswersInTheEnd (s : State) : Prop := s.restAnswer ≠ .wait

/-- The register lines at the head of each command's body (R113 to R126). -/
def commandHead : Instr → State → State
  | .init f => initHead f
  | .cfgps => id
  | .run p => runHead p
  | .stop => id
  | .setduty p => setdutyHead p
  | .reset f => resetHead f

/-- Port operations one after another, each after the writes of its gap: choice (a) of R41, said without the port. -/
def interleave : List MicroOp → List (List Host.Cell) → State → State
  | op :: ops, gap :: gaps, s => interleave ops gaps (advance op (envWrites gap s))
  | _, _, s => s

/-- The state with nobody to disturb the block: every operation is answered at once, by a plain store, and no other agent
does anything. -/
def undisturbed (s : State) : State := { s with answers := [], restAnswer := .ok, inputs := [] }

/-- Every byte of memory outside the listed words reads in `t` as in `s`. -/
def MemorySameOutside (ws : List Nat) (s t : State) : Prop :=
  ∀ a, (∀ w ∈ ws, ¬ InWord a w) → readByte t.mem a = readByte s.mem a

/-- What no command touches (R26): the parameters, what the outside world will do, and how the port goes on. -/
def SameOutside (s t : State) : Prop := t.params = s.params ∧ t.inputs = s.inputs ∧ t.restAnswer = s.restAnswer

/-- `frequency_hz`, `prescaler_code`, `period_ticks` are kept. -/
def SameTiming (s t : State) : Prop :=
  t.frequencyHz = s.frequencyHz ∧ t.prescalerCode = s.prescalerCode ∧ t.periodTicks = s.periodTicks

/-- `duty_ticks`, `duty_pct` are kept. -/
def SameDuty (s t : State) : Prop := t.dutyTicks = s.dutyTicks ∧ t.dutyPct = s.dutyPct

/-- `is_running`, `configured`, `faulted` are kept. -/
def SameFlags (s t : State) : Prop :=
  t.isRunning = s.isRunning ∧ t.configured = s.configured ∧ t.faulted = s.faulted

/-- A command ended with code `e`: the block is idle and no access group is open (R110). -/
def EndedWith (e : ErrCode) (t : State) : Prop := t.err = e ∧ t.busy = false ∧ t.held = none

/-- The port trace of a completed `SeqPrescaler` (R102): the word read and the word written at `PWM_CTRL`. -/
def tracePrescaler (old new : Word) : List TraceEvent :=
  [.acquire .pwm true, .rd .pwm 0x400 old, .wr .pwm 0x400 new, .release .pwm]

/-- The port trace of a completed `SeqRun` (R103). -/
def traceRun (oldCfg newCfg oldCtrl newCtrl period : Word) : List TraceEvent :=
  [.acquire .pin true, .rd .pin 0x800 oldCfg, .wr .pin 0x800 newCfg, .release .pin,
   .acquire .pwm true, .rd .pwm 0x400 oldCtrl, .wr .pwm 0x400 newCtrl, .wr .pwm 0x404 period, .release .pwm]

/-- The port trace of a completed `SeqStop` (R104). -/
def traceStop (oldCfg newCfg oldDat newDat oldCtrl newCtrl : Word) : List TraceEvent :=
  [.acquire .pin true, .rd .pin 0x800 oldCfg, .wr .pin 0x800 newCfg, .rd .pin 0x810 oldDat, .wr .pin 0x810 newDat,
   .release .pin, .acquire .pwm true, .rd .pwm 0x400 oldCtrl, .wr .pwm 0x400 newCtrl, .release .pwm]

/-- `PIN_FUNC <- 0b011` in a word of `PIN_CFG` (R95). -/
def pinPwmWord (old : Word) : Word := (old &&& 0xFF8FFFFF) ||| 0x00300000

/-- `PIN_FUNC <- GPIO_OUT_CODE` in a word of `PIN_CFG` (R98). -/
def pinGpioWord (code : BitVec 3) (old : Word) : Word := (old &&& 0xFF8FFFFF) ||| (code.zeroExtend 32 <<< 20)

/-- `PRESCAL <- code` in a word of `PWM_CTRL` (R94). -/
def prescalWord (code : BitVec 4) (old : Word) : Word := (old &&& 0xFFFFFFF0) ||| code.zeroExtend 32

/-- What is in place after `SeqRun`, whatever `SeqRun` read in `PWM_CTRL` (`ctrl`): the words of R103 and Running. -/
def RunApplied (ctrl : Word) (s t : State) : Prop :=
  t.isRunning = true ∧ t.pinCfg = pinPwmWord s.pinCfg ∧ t.pwmCtrl = ctrl ||| 0x00000070 ∧
    t.pwmPeriod = pack t.periodTicks t.dutyTicks

/-- The control state an admitted, completed command leads to (R128). -/
def nextControl : ControlState → Instr → ControlState
  | .unconfigured, .init _ => .stopped
  | .unconfigured, .cfgps => .unconfigured
  | .unconfigured, .run _ => .unconfigured
  | .unconfigured, .stop => .unconfigured
  | .unconfigured, .setduty _ => .unconfigured
  | .unconfigured, .reset _ => .unconfigured
  | .stopped, .init _ => .stopped
  | .stopped, .cfgps => .stopped
  | .stopped, .run _ => .running
  | .stopped, .stop => .stopped
  | .stopped, .setduty _ => .stopped
  | .stopped, .reset _ => .stopped
  | .running, .init _ => .running
  | .running, .cfgps => .running
  | .running, .run _ => .running
  | .running, .stop => .stopped
  | .running, .setduty _ => .running
  | .running, .reset _ => .running
  | .faulted, _ => .faulted

/-- Hardware reset of the block in any surroundings (R28, R160): the block registers of `State.reset`, and any memory,
parameters, port answers and inputs. -/
def resetIn (m : Memory) (p : Params) (answers : List Answer) (rest : Answer) (inputs : List Input) : State :=
  { State.reset with mem := m, params := p, answers := answers, restAnswer := rest, inputs := inputs }

/-- R27 (i), (ii), (v): the timing registers fit each other and the prescaler table. -/
def TimingOk (s : State) : Prop :=
  (1 ≤ s.frequencyHz.toNat ∧ s.frequencyHz.toNat ≤ maxFreq) ∧
  (∃ d, divider s.prescalerCode = some d ∧ s.periodTicks.toNat = quotient d s.frequencyHz.toNat) ∧
  1 ≤ s.periodTicks.toNat ∧ s.periodTicks.toNat ≤ 23976

/-- R27 (iii): the duty in ticks is that of the percentage, and not above the period. -/
def DutyOk (s : State) : Prop :=
  s.dutyTicks.toNat = dutyTicksOf s.periodTicks.toNat s.dutyPct.toNat ∧ s.dutyTicks.toNat ≤ s.periodTicks.toNat

/-- R27, all five clauses. -/
def ConfigOk (s : State) : Prop := TimingOk s ∧ DutyOk s ∧ s.dutyPct.toNat ≤ maxPct

/-- The window whose group is open after a port operation that completed (R32). -/
def heldAfter (h : Option Window) (op : MicroOp) : Option Window :=
  match op.port with
  | .acquire w => some w
  | .release _ => none
  | .rd _ _ => h
  | .wrField _ => h
  | .wrPeriod => h

/-- The port protocol (R32): `Acquire` only when no group is open, any other operation only on the open group's window. -/
def protocolOk : Option Window → List MicroOp → Bool
  | h, [] => h == none
  | h, op :: ops =>
    (match op.port with
      | .acquire _ => h == none
      | .release w => h == some w
      | .rd w _ => h == some w
      | .wrField u => h == some (updateWindow u)
      | .wrPeriod => h == some .pwm) && protocolOk (heldAfter h op) ops

/-- `duty_ticks` is out of step with `duty_pct` only in a `RUN` that has not yet reached its recompute (R97, R117): the
recompute follows the seventh port operation. -/
def BeforeRecompute (i : Instr) (s : State) : Prop := (∃ p, i = .run p) ∧ s.ustep < 7

/-- What holds while a command is executing (R24, R32, R110, R112): `cur_cmd` spells an admitted command, `ustep` is one of
its port operations, `held` is the group open there, and the registers are those of R27 but for R97's recompute. -/
def BusyOk (s : State) : Prop :=
  ∃ i, i.wellFormed = true ∧ s.curCmd = encode i ∧ Admitted i s ∧
    s.ustep < (program i s.isRunning).length ∧
    s.held = ((program i s.isRunning).take s.ustep).foldl heldAfter none ∧
    TimingOk s ∧ s.dutyPct.toNat ≤ maxPct ∧ (DutyOk s ∨ BeforeRecompute i s)

/-- The machine's invariant. -/
structure Inv (s : State) : Prop where
  /-- The memory is in its canonical form. -/
  memory : Memory.wf s.mem
  /-- Only a configured block runs (R128). -/
  running : s.isRunning = true → s.configured = true
  /-- A faulted block is idle and says why (R145, R143). -/
  faulted : s.faulted = true → s.busy = false ∧ (s.err = .eHwAccess ∨ s.err = .eFaulted)
  /-- Only a faulted block says so (R148). -/
  unfaulted : s.faulted = false → s.err ≠ .eHwAccess ∧ s.err ≠ .eFaulted
  /-- No access group is open between commands (R101, R130). -/
  released : s.busy = false → s.held = none
  /-- R27. -/
  config : s.configured = true → s.busy = false → s.faulted = false → ConfigOk s
  /-- The command in progress is coherent. -/
  sequencer : s.busy = true → BusyOk s

end Sys2Proof.Machine
end

