-- ==== Sys2Proof/Certificates/Slice0/Obligations.lean ====
section
/-! DEFINITION. What is to be proved of the block. Every statement about a command says for which states it completes, in
terms of the state and the operands alone, what it changes and what it leaves alone. `ustep`, `cur_cmd`, `tmp` have no
meaning between commands (R24, R112), so the statements say nothing of them there. -/

open Sys2Proof Sys2Proof.Machine

/-! ### The command word -/

/-- R51 to R55: encoding then decoding any well-formed command gives it back. -/
def Obligations.DecodeEncode : Prop :=
  ∀ i : Instr, i.wellFormed = true → decode (encode i) = .ok i

/-- R51 to R56: what a word decodes to is well formed and spells that word again, so no bit of a legal word is dropped. -/
def Obligations.EncodeDecode : Prop :=
  ∀ (c : Word) (i : Instr), decode c = .ok i → i.wellFormed = true ∧ encode i = c

/-- R55: a word spells a row's command exactly when `c & mask = match`, and it matches at most one row. -/
def Obligations.OpcodeMapDecides : Prop :=
  (∀ (c : Word) (i : Instr), decode c = .ok i → (opcodeRow i).spells c = true) ∧
  (∀ (c : Word) (i : Instr), (opcodeRow i).spells c = true → ∃ j, decode c = .ok j ∧ opcodeRow j = opcodeRow i) ∧
  opcodeMap.Pairwise (fun a b => ∀ c : Word, ¬ (a.spells c = true ∧ b.spells c = true))

/-- R56: which words are illegal, by their opcode and operand numbers. -/
def Obligations.IllegalWords : Prop :=
  ∀ c : Word, (∃ e, decode c = .error e) ↔
    (c.toNat / 2 ^ 28 = 0 ∨ 7 ≤ c.toNat / 2 ^ 28) ∨
    ((c.toNat / 2 ^ 28 = 2 ∨ c.toNat / 2 ^ 28 = 4) ∧ c.toNat % 2 ^ 28 ≠ 0) ∨
    ((c.toNat / 2 ^ 28 = 3 ∨ c.toNat / 2 ^ 28 = 5) ∧ c.toNat % 2 ^ 28 / 2 ^ 7 ≠ 0)

/-- The words worked in `42_commands.md` decode to the commands they stand for. -/
def Obligations.WorkedWordsDecode : Prop :=
  decode 0x100003E8 = .ok (.init 1000) ∧ decode 0x20000000 = .ok .cfgps ∧ decode 0x30000032 = .ok (.run 50) ∧
  decode 0x40000000 = .ok .stop ∧ decode 0x50000019 = .ok (.setduty 25) ∧ decode 0x600001B8 = .ok (.reset 440)

/-! ### The calculator -/

/-- R75 (a): the code, period and fallback of every legal frequency. -/
def Obligations.SelectByRange : Prop :=
  ∀ f : Nat, 1 ≤ f → f ≤ 24000000 →
    select f =
      if f = 1 then ⟨0b1100, 24000000 / 72000 / f, false⟩
      else if f = 2 then ⟨0b1011, 24000000 / 48000 / f, false⟩
      else if f = 3 then ⟨0b1010, 24000000 / 36000 / f, false⟩
      else if f ≤ 5 then ⟨0b1001, 24000000 / 24000 / f, false⟩
      else if f ≤ 10 then ⟨0b1000, 24000000 / 12000 / f, false⟩
      else if f ≤ 250 then ⟨0b0100, 24000000 / 480 / f, false⟩
      else if f ≤ 333 then ⟨0b0011, 24000000 / 360 / f, false⟩
      else if f ≤ 500 then ⟨0b0010, 24000000 / 240 / f, false⟩
      else if f ≤ 666 then ⟨0b0001, 24000000 / 180 / f, false⟩
      else if f ≤ 1000 then ⟨0b0000, 24000000 / 120 / f, false⟩
      else if f ≤ 120000 then ⟨0b1111, 24000000 / f, false⟩
      else ⟨0b1111, 24000000 / f, true⟩

/-- R75 (b), R76: the code is a key of the table, the period is that of its divider, fits its register and is at least 1,
and it is below 200 exactly when the fallback was taken. -/
def Obligations.SelectBounds : Prop :=
  ∀ f : Nat, 1 ≤ f → f ≤ 24000000 →
    (∃ d, divider (select f).code = some d ∧ (select f).period = 24000000 / d / f) ∧
    1 ≤ (select f).period ∧ (select f).period ≤ 23976 ∧
    ((select f).fellBack = true ↔ (select f).period < 200)

/-- R73: the chosen code is eligible when any is, and no eligible code has a smaller score; two eligible codes never tie. -/
def Obligations.SelectSmallestScore : Prop :=
  (∀ (f : Nat) (r : PrescalerRow), 1 ≤ f → f ≤ 24000000 → r ∈ prescalerTable → 200 ≤ quotient r.divider f →
    (select f).fellBack = false ∧ 200 ≤ (select f).period ∧ (select f).period ≤ quotient r.divider f) ∧
  (∀ (f : Nat) (r₁ r₂ : PrescalerRow), 1 ≤ f → r₁ ∈ prescalerTable → r₂ ∈ prescalerTable →
    200 ≤ quotient r₁.divider f → quotient r₁.divider f = quotient r₂.divider f → r₁ = r₂)

/-- R73: every iteration order of the table gives the same result for every legal frequency. -/
def Obligations.SelectOrderIrrelevant : Prop :=
  ∀ (order : List PrescalerRow) (f : Nat), order.Perm prescalerTable → 1 ≤ f → f ≤ 24000000 →
    selectFrom order f = select f

/-- R71: `Select` never returns an invalid code. -/
def Obligations.SelectNeverInvalidCode : Prop :=
  ∀ f : Nat, (select f).code ∉ [0b0101#4, 0b0110#4, 0b0111#4, 0b1101#4, 0b1110#4]

/-- R77: duty ticks, exact in their 16-bit register, with the corner cases and the product's bound. -/
def Obligations.DutyTicksExact : Prop :=
  ∀ s : State, 1 ≤ s.periodTicks.toNat → s.periodTicks.toNat ≤ 23976 → s.dutyPct.toNat ≤ 100 →
    (latchDuty s).dutyTicks.toNat = s.periodTicks.toNat * s.dutyPct.toNat / 100 ∧
    (latchDuty s).dutyTicks.toNat ≤ s.periodTicks.toNat ∧
    (s.dutyPct.toNat = 0 → (latchDuty s).dutyTicks.toNat = 0) ∧
    (s.dutyPct.toNat = 100 → (latchDuty s).dutyTicks = s.periodTicks) ∧
    (s.periodTicks.toNat = 1 → s.dutyPct.toNat < 100 → (latchDuty s).dutyTicks.toNat = 0) ∧
    s.periodTicks.toNat * s.dutyPct.toNat ≤ 2397600 ∧ 2397600 < 2 ^ 22

/-- R78: the packed word holds both halves whole. -/
def Obligations.PackHalves : Prop :=
  ∀ period duty : BitVec 16,
    (pack period duty).toNat = period.toNat * 2 ^ 16 + duty.toNat ∧
    (pack period duty).extractLsb' 16 16 = period ∧ (pack period duty).extractLsb' 0 16 = duty

/-! ### Memory and the RMW engine -/

/-- R33, R34: a written word reads back, its byte `k` is bits `[8k+7 : 8k]`, and every other byte is as before. The first
clause, that the memory keeps its canonical form, is no part of those rules: it is the model's representation (assumption
log 1). -/
def Obligations.WordWrite : Prop :=
  ∀ (m : Memory) (a : Nat) (v : Word), Memory.wf m →
    Memory.wf (writeWord m a v) ∧ readWord (writeWord m a v) a = v ∧
    (∀ k < 4, readByte (writeWord m a v) (a + k) = v.extractLsb' (8 * k) 8) ∧
    (∀ x, ¬ InWord x a → readByte (writeWord m a v) x = readByte m x)

/-- Two memories in canonical form that read alike everywhere are the same data (the model's representation, log 1). -/
def Obligations.MemoryExtensional : Prop :=
  ∀ m₁ m₂ : Memory, Memory.wf m₁ → Memory.wf m₂ → (∀ a, readByte m₁ a = readByte m₂ a) → m₁ = m₂

/-- R91, R92 (a): the `Rd` and the `Wr` of an update leave the register at `(old & ~mask) | val`, so the bits outside the
mask are unchanged, and no other byte of memory changes. -/
def Obligations.RmwLocality : Prop :=
  ∀ (u : Update) (s : State), Memory.wf s.mem →
    let a := portAddr s.params (updateWindow u) (updateOffset u)
    let t := perform (.wrField u) (perform (.rd (updateWindow u) (updateOffset u)) s)
    readWord t.mem a = (readWord s.mem a &&& ~~~(updateMask u)) ||| updateValue s u ∧
    readWord t.mem a &&& ~~~(updateMask u) = readWord s.mem a &&& ~~~(updateMask u) ∧
    MemorySameOutside [a] s t

/-- R92 (b), (c): doing an `RMW` twice is doing it once, and two with disjoint masks commute. -/
def Obligations.RmwIdempotentCommutes : Prop :=
  (∀ m v x : Word, mergeField m v (mergeField m v x) = mergeField m v x) ∧
  (∀ m₁ v₁ m₂ v₂ x : Word, v₁ &&& ~~~m₁ = 0 → v₂ &&& ~~~m₂ = 0 → m₁ &&& m₂ = 0 →
    mergeField m₁ v₁ (mergeField m₂ v₂ x) = mergeField m₂ v₂ (mergeField m₁ v₁ x))

/-- R94 to R96, R98 to R100: the word each update writes over an old word. -/
def Obligations.UpdateWords : Prop :=
  ∀ (s : State) (old : Word),
    mergeField (updateMask .prescal) (updateValue s .prescal) old = prescalWord s.prescalerCode old ∧
    mergeField (updateMask .pinPwm) (updateValue s .pinPwm) old = pinPwmWord old ∧
    mergeField (updateMask .enable) (updateValue s .enable) old = old ||| 0x00000070 ∧
    mergeField (updateMask .pinGpio) (updateValue s .pinGpio) old = pinGpioWord s.params.gpioOutCode old ∧
    mergeField (updateMask .pinLow) (updateValue s .pinLow) old = old &&& 0xFFFFFFDF ∧
    mergeField (updateMask .disable) (updateValue s .disable) old = old &&& 0xFFFFFF8F

/-- R166: whatever another agent writes between the `Rd` and the `Wr` of an update, the word written back is made from the
stale word read, so a change to that word is lost, and a change elsewhere stands (the interference model: the model's
choice of the two R41 offers, assumption log 6). -/
def Obligations.LostUpdate : Prop :=
  ∀ (u : Update) (cell : Host.Cell) (s : State), Memory.wf s.mem →
    let a := portAddr s.params (updateWindow u) (updateOffset u)
    let t := perform (.wrField u) (envWrite cell (perform (.rd (updateWindow u) (updateOffset u)) s))
    readWord t.mem a = (readWord s.mem a &&& ~~~(updateMask u)) ||| updateValue s u ∧
    (¬ InWord cell.1 a → readByte t.mem cell.1 = cell.2)

/-- R112, R129: how many port operations each command has, Stopped and Running. -/
def Obligations.PortOperationCounts : Prop :=
  ∀ (f p : Nat) (r : Bool),
    (program (.init f) r).length = 4 ∧ (program .cfgps r).length = 4 ∧ (program (.run p) r).length = 9 ∧
    (program .stop r).length = 10 ∧ (program (.setduty p) false).length = 0 ∧
    (program (.setduty p) true).length = 9 ∧ (program (.reset f) false).length = 4 ∧
    (program (.reset f) true).length = 13

/-- R32: every command keeps the port protocol. -/
def Obligations.PortProtocol : Prop := ∀ (i : Instr) (r : Bool), protocolOk none (program i r) = true

/-! ### The six commands, admitted and with the port answering -/

/-- R113: `INIT f` completes, configures the block for `f` and writes the prescaler field alone. -/
def Obligations.InitCompletes : Prop :=
  ∀ (f : Nat) (s : State), 1 ≤ f → f ≤ 24000000 → s.configured = false → s.faulted = false → Memory.wf s.mem →
    AnswersOk 4 s →
    ∃ t, exec (.init f) s = .next t ∧
      t.frequencyHz.toNat = f ∧ t.prescalerCode = (select f).code ∧ t.periodTicks.toNat = (select f).period ∧
      t.dutyPct = 0 ∧ t.dutyTicks = 0 ∧
      t.isRunning = false ∧ t.configured = true ∧ t.faulted = false ∧ EndedWith .eOk t ∧
      t.pwmCtrl = prescalWord (select f).code s.pwmCtrl ∧ MemorySameOutside [addrPwmCtrl s] s t ∧
      SameOutside s t ∧ t.answers = s.answers.drop 4 ∧
      t.trace = s.trace ++ tracePrescaler s.pwmCtrl (prescalWord (select f).code s.pwmCtrl) ++ [.done .eOk]

/-- R115: `CFGPS` completes and rewrites the prescaler field alone. -/
def Obligations.CfgpsCompletes : Prop :=
  ∀ s : State, s.configured = true → s.faulted = false → Memory.wf s.mem → AnswersOk 4 s →
    ∃ t, exec .cfgps s = .next t ∧ SameTiming s t ∧ SameDuty s t ∧ SameFlags s t ∧ EndedWith .eOk t ∧
      t.pwmCtrl = prescalWord s.prescalerCode s.pwmCtrl ∧ MemorySameOutside [addrPwmCtrl s] s t ∧
      SameOutside s t ∧ t.answers = s.answers.drop 4 ∧
      t.trace = s.trace ++ tracePrescaler s.pwmCtrl (prescalWord s.prescalerCode s.pwmCtrl) ++ [.done .eOk]

/-- R117: `RUN p` completes, from Stopped and from Running. -/
def Obligations.RunCompletes : Prop :=
  ∀ (p : Nat) (s : State), p ≤ 100 → s.configured = true → s.faulted = false → Memory.wf s.mem → s.params.Legal →
    AnswersOk 9 s →
    ∃ t, exec (.run p) s = .next t ∧
      t.dutyPct.toNat = p ∧ t.dutyTicks.toNat = s.periodTicks.toNat * p / 100 ∧ SameTiming s t ∧
      t.configured = true ∧ t.faulted = false ∧ EndedWith .eOk t ∧ RunApplied s.pwmCtrl s t ∧
      MemorySameOutside [addrPinCfg s, addrPwmCtrl s, addrPwmPeriod s] s t ∧
      SameOutside s t ∧ t.answers = s.answers.drop 9 ∧
      t.trace = s.trace ++ traceRun s.pinCfg (pinPwmWord s.pinCfg) s.pwmCtrl (s.pwmCtrl ||| 0x00000070)
        (pack s.periodTicks t.dutyTicks) ++ [.done .eOk]

/-- R120, R121: `STOP` completes, from Running and from Stopped. -/
def Obligations.StopCompletes : Prop :=
  ∀ s : State, s.configured = true → s.faulted = false → Memory.wf s.mem → s.params.Legal → AnswersOk 10 s →
    ∃ t, exec .stop s = .next t ∧ t.isRunning = false ∧
      SameTiming s t ∧ SameDuty s t ∧ t.configured = true ∧ t.faulted = false ∧ EndedWith .eOk t ∧
      t.pinCfg = pinGpioWord s.params.gpioOutCode s.pinCfg ∧ t.pinDat = s.pinDat &&& 0xFFFFFFDF ∧
      t.pwmCtrl = s.pwmCtrl &&& 0xFFFFFF8F ∧
      MemorySameOutside [addrPinCfg s, addrPinDat s, addrPwmCtrl s] s t ∧
      SameOutside s t ∧ t.answers = s.answers.drop 10 ∧
      t.trace = s.trace ++ traceStop s.pinCfg (pinGpioWord s.params.gpioOutCode s.pinCfg) s.pinDat
        (s.pinDat &&& 0xFFFFFFDF) s.pwmCtrl (s.pwmCtrl &&& 0xFFFFFF8F) ++ [.done .eOk]

/-- R123, R124: `SETDUTY p` while Stopped completes whatever the port would answer, and issues no port operation. -/
def Obligations.SetdutyStoppedCompletes : Prop :=
  ∀ (p : Nat) (s : State), p ≤ 100 → s.configured = true → s.faulted = false → s.isRunning = false →
    ∃ t, exec (.setduty p) s = .next t ∧
      t.dutyPct.toNat = p ∧ t.dutyTicks.toNat = s.periodTicks.toNat * p / 100 ∧
      SameTiming s t ∧ SameFlags s t ∧ t.err = .eOk ∧ t.busy = false ∧ t.held = s.held ∧
      t.mem = s.mem ∧ SameOutside s t ∧ t.answers = s.answers ∧ t.trace = s.trace ++ [.done .eOk]

/-- R123, R129: `SETDUTY p` while Running re-applies the whole run sequence. -/
def Obligations.SetdutyRunningCompletes : Prop :=
  ∀ (p : Nat) (s : State), p ≤ 100 → s.configured = true → s.faulted = false → s.isRunning = true →
    Memory.wf s.mem → s.params.Legal → AnswersOk 9 s →
    ∃ t, exec (.setduty p) s = .next t ∧
      t.dutyPct.toNat = p ∧ t.dutyTicks.toNat = s.periodTicks.toNat * p / 100 ∧
      SameTiming s t ∧ SameFlags s t ∧ EndedWith .eOk t ∧ RunApplied s.pwmCtrl s t ∧
      MemorySameOutside [addrPinCfg s, addrPwmCtrl s, addrPwmPeriod s] s t ∧
      SameOutside s t ∧ t.answers = s.answers.drop 9 ∧
      t.trace = s.trace ++ traceRun s.pinCfg (pinPwmWord s.pinCfg) s.pwmCtrl (s.pwmCtrl ||| 0x00000070)
        (pack s.periodTicks t.dutyTicks) ++ [.done .eOk]

/-- R125, R126: `RESET f` while Stopped. -/
def Obligations.ResetStoppedCompletes : Prop :=
  ∀ (f : Nat) (s : State), 1 ≤ f → f ≤ 24000000 → s.configured = true → s.faulted = false → s.isRunning = false →
    Memory.wf s.mem → AnswersOk 4 s →
    ∃ t, exec (.reset f) s = .next t ∧
      t.frequencyHz.toNat = f ∧ t.prescalerCode = (select f).code ∧ t.periodTicks.toNat = (select f).period ∧
      t.dutyPct = s.dutyPct ∧ t.dutyTicks.toNat = (select f).period * s.dutyPct.toNat / 100 ∧
      SameFlags s t ∧ EndedWith .eOk t ∧
      t.pwmCtrl = prescalWord (select f).code s.pwmCtrl ∧ MemorySameOutside [addrPwmCtrl s] s t ∧
      SameOutside s t ∧ t.answers = s.answers.drop 4 ∧
      t.trace = s.trace ++ tracePrescaler s.pwmCtrl (prescalWord (select f).code s.pwmCtrl) ++ [.done .eOk]

/-- R125, R127, R129: `RESET f` while Running rewrites the prescaler and re-applies the run sequence at the last duty. -/
def Obligations.ResetRunningCompletes : Prop :=
  ∀ (f : Nat) (s : State), 1 ≤ f → f ≤ 24000000 → s.configured = true → s.faulted = false → s.isRunning = true →
    Memory.wf s.mem → s.params.Legal → AnswersOk 13 s →
    ∃ t, exec (.reset f) s = .next t ∧
      t.frequencyHz.toNat = f ∧ t.prescalerCode = (select f).code ∧ t.periodTicks.toNat = (select f).period ∧
      t.dutyPct = s.dutyPct ∧ t.dutyTicks.toNat = (select f).period * s.dutyPct.toNat / 100 ∧
      SameFlags s t ∧ EndedWith .eOk t ∧ RunApplied (prescalWord (select f).code s.pwmCtrl) s t ∧
      MemorySameOutside [addrPinCfg s, addrPwmCtrl s, addrPwmPeriod s] s t ∧
      SameOutside s t ∧ t.answers = s.answers.drop 13 ∧
      t.trace = s.trace ++ tracePrescaler s.pwmCtrl (prescalWord (select f).code s.pwmCtrl) ++
        traceRun s.pinCfg (pinPwmWord s.pinCfg) (prescalWord (select f).code s.pwmCtrl)
          (prescalWord (select f).code s.pwmCtrl ||| 0x00000070) (pack t.periodTicks t.dutyTicks) ++ [.done .eOk]

/-! ### Laws of the commands -/

/-- R116: two `CFGPS` leave the `PWM_CTRL` of one, with bits `[31:4]` as they were, and do not stop a channel. -/
def Obligations.CfgpsIdempotent : Prop :=
  ∀ s : State, s.configured = true → s.faulted = false → Memory.wf s.mem → AnswersOk 8 s →
    ∃ t u, exec .cfgps s = .next t ∧ exec .cfgps t = .next u ∧ u.pwmCtrl = t.pwmCtrl ∧ u.mem = t.mem ∧
      t.pwmCtrl.extractLsb' 4 28 = s.pwmCtrl.extractLsb' 4 28 ∧ u.isRunning = s.isRunning ∧
      MemorySameOutside [addrPwmCtrl s] s u

/-- R105 (a), R118: `RUN p` twice leaves the memory and the registers of `RUN p` once. -/
def Obligations.RunIdempotent : Prop :=
  ∀ (p : Nat) (s : State), p ≤ 100 → s.configured = true → s.faulted = false → Memory.wf s.mem → s.params.Legal →
    AnswersOk 18 s →
    ∃ t u, exec (.run p) s = .next t ∧ exec (.run p) t = .next u ∧
      u.mem = t.mem ∧ SameTiming t u ∧ SameDuty t u ∧ SameFlags t u ∧ t.isRunning = true

/-- R105 (b), R122: where `RUN p` then `STOP` leaves the target registers. -/
def Obligations.RunThenStop : Prop :=
  ∀ (p : Nat) (s : State), p ≤ 100 → s.configured = true → s.faulted = false → Memory.wf s.mem → s.params.Legal →
    AnswersOk 19 s →
    ∃ t u, exec (.run p) s = .next t ∧ exec .stop t = .next u ∧ u.isRunning = false ∧
      u.pwmCtrl = s.pwmCtrl &&& 0xFFFFFF8F ∧ u.pwmPeriod = pack s.periodTicks t.dutyTicks ∧
      u.pinCfg = pinGpioWord s.params.gpioOutCode s.pinCfg ∧ u.pinDat = s.pinDat &&& 0xFFFFFFDF ∧
      MemorySameOutside [addrPinCfg s, addrPinDat s, addrPwmCtrl s, addrPwmPeriod s] s u

/-- R60, R124 (conflict C4): while Stopped and with the port answering, `SETDUTY d` then `RUN d` is `RUN d`, but for the
extra end of a command in the trace. -/
def Obligations.SetdutyThenRunIsRun : Prop :=
  ∀ (d : Nat) (s : State), d ≤ 100 → s.configured = true → s.faulted = false → s.isRunning = false → AnswersOk 9 s →
    ∃ t u v, exec (.setduty d) s = .next t ∧ exec (.run d) t = .next u ∧ exec (.run d) s = .next v ∧
      v.isRunning = true ∧ ({ u with trace := v.trace } : State) = v

/-- R90, R105, U5: however the port's answers fail or wait, no command changes a bit of memory outside the five fields: not of
the three shared words where they are plain store and no other agent writes them (R175; who writes them is in the answers,
assumption log 6, 7), and, without those premises, not of any byte outside the four target registers that nobody else
changes. -/
def Obligations.BitsOutsideFieldsKept : Prop :=
  ∀ (i : Instr) (s t : State), Memory.wf s.mem → s.params.Legal → exec i s = .next t →
    (PlainStore s → NoTargetWrites s →
      t.pwmCtrl &&& 0xFFFFFF80 = s.pwmCtrl &&& 0xFFFFFF80 ∧ t.pinCfg &&& 0xFF8FFFFF = s.pinCfg &&& 0xFF8FFFFF ∧
      t.pinDat &&& 0xFFFFFFDF = s.pinDat &&& 0xFFFFFFDF) ∧
    ∀ a, ¬ InTargets s a → ¬ ChangedByOthers s a → readByte t.mem a = readByte s.mem a

/-- R128: the control state after a command that ended, by how it ended. -/
def Obligations.ControlTransitions : Prop :=
  ∀ (i : Instr) (s t : State), exec i s = .next t → t.busy = false →
    (t.err = .eOk → controlState t = nextControl (controlState s) i) ∧
    (t.err = .eHwAccess → controlState t = .faulted ∧ ((∃ f, i = .init f) ∨ t.isRunning = s.isRunning)) ∧
    (t.err ≠ .eOk → t.err ≠ .eHwAccess → controlState t = controlState s)

/-! ### Admission, refusal, the fatal fault -/

/-- R143: `Admit`, in the priority order of the rule, by the opcode and operand numbers of the word. -/
def Obligations.AdmitPriority : Prop :=
  ∀ (c : Word) (s : State),
    admission (decode c) s =
      if s.faulted = true then .eFaulted
      else if (opcodeMap.any fun r => r.spells c) = false then .eIllegal
      else if c.toNat / 2 ^ 28 = 1 ∧ s.configured = true then .eState
      else if c.toNat / 2 ^ 28 ≠ 1 ∧ s.configured = false then .eState
      else if (c.toNat / 2 ^ 28 = 1 ∨ c.toNat / 2 ^ 28 = 6) ∧ (c.toNat % 2 ^ 28 = 0 ∨ 24000000 < c.toNat % 2 ^ 28) then
        .eInput
      else if (c.toNat / 2 ^ 28 = 3 ∨ c.toNat / 2 ^ 28 = 5) ∧ 100 < c.toNat % 2 ^ 7 then .eInput
      else .eOk

/-- R140, R56: a presented word that is not admitted ends the command with its code; nothing else changes. -/
def Obligations.RefusalChangesOnlyErr : Prop :=
  ∀ (c : Word) (rest : List Input) (s : State), s.busy = false → s.inputs = .command c :: rest →
    admission (decode c) s ≠ .eOk →
    ∃ t, step s = .next t ∧ t.err = admission (decode c) s ∧ t.busy = false ∧ t.held = s.held ∧
      SameTiming s t ∧ SameDuty s t ∧ SameFlags s t ∧ t.mem = s.mem ∧ t.params = s.params ∧
      t.answers = s.answers ∧ t.restAnswer = s.restAnswer ∧ t.inputs = rest ∧
      t.trace = s.trace ++ [.done (admission (decode c) s)]

/-- R110: a command that is admitted either completes with `E_OK` or ends in the fatal fault, if the port answers. -/
def Obligations.AdmittedEndsOkOrFatal : Prop :=
  ∀ (i : Instr) (s : State), Admitted i s → PortAnswers s →
    ∃ t, exec i s = .next t ∧ t.busy = false ∧
      ((t.err = .eOk ∧ t.faulted = false) ∨ (t.err = .eHwAccess ∧ t.faulted = true ∧ t.held = none)) ∧
      (AcquireOk s → t.err = .eOk)

/-- R130, first two rows: `INIT` and `CFGPS` at a failing `Acquire(PWM)`. -/
def Obligations.PrescalerAcquireFailure : Prop :=
  (∀ (f : Nat) (s : State), 1 ≤ f → f ≤ 24000000 → s.configured = false → s.faulted = false → s.answer 0 = .fail →
    ∃ t, exec (.init f) s = .next t ∧ EndedWith .eHwAccess t ∧ t.faulted = true ∧ t.configured = false ∧
      t.isRunning = false ∧ t.frequencyHz.toNat = f ∧ t.prescalerCode = (select f).code ∧
      t.periodTicks.toNat = (select f).period ∧ t.dutyPct = 0 ∧ t.dutyTicks = 0 ∧
      t.mem = s.mem ∧ SameOutside s t ∧ t.trace = s.trace ++ [.acquire .pwm false, .done .eHwAccess]) ∧
  (∀ s : State, s.configured = true → s.faulted = false → s.answer 0 = .fail →
    ∃ t, exec .cfgps s = .next t ∧ EndedWith .eHwAccess t ∧ t.faulted = true ∧ t.configured = true ∧
      t.isRunning = s.isRunning ∧ SameTiming s t ∧ SameDuty s t ∧
      t.mem = s.mem ∧ SameOutside s t ∧ t.trace = s.trace ++ [.acquire .pwm false, .done .eHwAccess])

/-- R130: `RUN` and `SETDUTY` while Running at a failing `Acquire(PIN)` and at a failing `Acquire(PWM)`. -/
def Obligations.RunAcquireFailure : Prop :=
  ∀ (p : Nat) (s : State), p ≤ 100 → s.configured = true → s.faulted = false → Memory.wf s.mem →
    (s.answer 0 = .fail →
      (∃ t, exec (.run p) s = .next t ∧ EndedWith .eHwAccess t ∧ t.faulted = true ∧ t.configured = true ∧
        t.isRunning = s.isRunning ∧ SameTiming s t ∧ t.dutyPct.toNat = p ∧ t.dutyTicks = s.dutyTicks ∧
        t.mem = s.mem ∧ SameOutside s t ∧ t.trace = s.trace ++ [.acquire .pin false, .done .eHwAccess]) ∧
      (s.isRunning = true → ∃ t, exec (.setduty p) s = .next t ∧ EndedWith .eHwAccess t ∧ t.faulted = true ∧
        t.configured = true ∧ t.isRunning = true ∧ SameTiming s t ∧ t.dutyPct.toNat = p ∧
        t.dutyTicks.toNat = s.periodTicks.toNat * p / 100 ∧
        t.mem = s.mem ∧ SameOutside s t ∧ t.trace = s.trace ++ [.acquire .pin false, .done .eHwAccess])) ∧
    (AnswersOk 4 s → s.answer 4 = .fail →
      (∃ t, exec (.run p) s = .next t ∧ EndedWith .eHwAccess t ∧ t.faulted = true ∧ t.configured = true ∧
        t.isRunning = s.isRunning ∧ SameTiming s t ∧ t.dutyPct.toNat = p ∧ t.dutyTicks = s.dutyTicks ∧
        t.pinCfg = pinPwmWord s.pinCfg ∧ MemorySameOutside [addrPinCfg s] s t ∧ SameOutside s t) ∧
      (s.isRunning = true → ∃ t, exec (.setduty p) s = .next t ∧ EndedWith .eHwAccess t ∧ t.faulted = true ∧
        t.configured = true ∧ t.isRunning = true ∧ SameTiming s t ∧ t.dutyPct.toNat = p ∧
        t.dutyTicks.toNat = s.periodTicks.toNat * p / 100 ∧
        t.pinCfg = pinPwmWord s.pinCfg ∧ MemorySameOutside [addrPinCfg s] s t ∧ SameOutside s t))

/-- R130: `STOP` at a failing `Acquire(PIN)` and at a failing `Acquire(PWM)`. -/
def Obligations.StopAcquireFailure : Prop :=
  ∀ s : State, s.configured = true → s.faulted = false → Memory.wf s.mem →
    (s.answer 0 = .fail →
      ∃ t, exec .stop s = .next t ∧ EndedWith .eHwAccess t ∧ t.faulted = true ∧ t.configured = true ∧
        t.isRunning = s.isRunning ∧ SameTiming s t ∧ SameDuty s t ∧ t.mem = s.mem ∧ SameOutside s t ∧
        t.trace = s.trace ++ [.acquire .pin false, .done .eHwAccess]) ∧
    (AnswersOk 6 s → s.answer 6 = .fail →
      ∃ t, exec .stop s = .next t ∧ EndedWith .eHwAccess t ∧ t.faulted = true ∧ t.configured = true ∧
        t.isRunning = s.isRunning ∧ SameTiming s t ∧ SameDuty s t ∧
        t.pinCfg = pinGpioWord s.params.gpioOutCode s.pinCfg ∧ t.pinDat = s.pinDat &&& 0xFFFFFFDF ∧
        MemorySameOutside [addrPinCfg s, addrPinDat s] s t ∧ SameOutside s t)

/-- R130: `RESET` at each of its `Acquire`s; the second and third exist only while Running. -/
def Obligations.ResetAcquireFailure : Prop :=
  ∀ (f : Nat) (s : State), 1 ≤ f → f ≤ 24000000 → s.configured = true → s.faulted = false →
    Memory.wf s.mem → s.params.Legal →
    ∀ n : Nat, (n = 0 ∨ (s.isRunning = true ∧ (n = 4 ∨ n = 8))) → AnswersOk n s → s.answer n = .fail →
      ∃ t, exec (.reset f) s = .next t ∧ EndedWith .eHwAccess t ∧ t.faulted = true ∧ t.configured = true ∧
        t.isRunning = s.isRunning ∧ t.frequencyHz.toNat = f ∧ t.prescalerCode = (select f).code ∧
        t.periodTicks.toNat = (select f).period ∧ t.dutyPct = s.dutyPct ∧
        t.dutyTicks.toNat = (select f).period * s.dutyPct.toNat / 100 ∧ SameOutside s t ∧
        t.pwmCtrl = (if n = 0 then s.pwmCtrl else prescalWord (select f).code s.pwmCtrl) ∧
        t.pinCfg = (if n = 8 then pinPwmWord s.pinCfg else s.pinCfg) ∧
        MemorySameOutside (if n = 0 then [] else if n = 4 then [addrPwmCtrl s] else [addrPwmCtrl s, addrPinCfg s]) s t

/-- R18, R145: only hardware reset clears `faulted`, and a faulted idle block changes no memory: at a step on a presented
word it refuses, whatever the word. -/
def Obligations.FaultIsSticky : Prop :=
  (∀ s t : State, s.faulted = true → step s = .next t → t.faulted = true ∨ ∃ rest, s.inputs = .hardReset :: rest) ∧
  (∀ (c : Word) (rest : List Input) (s : State), s.faulted = true → s.busy = false → s.inputs = .command c :: rest →
    ∃ t, step s = .next t ∧ t.faulted = true ∧ t.err = .eFaulted ∧ t.mem = s.mem)

/-! ### The step, the command port, reset, the other agents -/

/-- R58, R110: a step of an idle block on a presented word that spells a well-formed command is that command, the word
taken from the port (the list of inputs is the model's form of the command port, assumption log 8). -/
def Obligations.StepRunsDecoded : Prop :=
  ∀ (c : Word) (rest : List Input) (i : Instr) (s : State), s.busy = false → s.inputs = .command c :: rest →
    decode c = .ok i → i.wellFormed = true → step s = exec i { s with inputs := rest }

/-- R58: a word presented while the block is busy has no effect and stays presented. -/
def Obligations.BusyHoldsCommand : Prop :=
  ∀ (c : Word) (rest : List Input) (s t : State), s.busy = true → s.inputs = .command c :: rest → step s = .next t →
    t.inputs = s.inputs ∧ ∃ u, step { s with inputs := [] } = .next u ∧ t = { u with inputs := s.inputs }

/-- R56, R61: an idle block takes every one of the 2^32 words, and the command ends if the port answers. -/
def Obligations.AnyWordIsTaken : Prop :=
  ∀ (c : Word) (rest : List Input) (s : State), s.busy = false → s.inputs = .command c :: rest →
    ∃ t, step s = .next t ∧ t.inputs = rest ∧ (PortAnswers s → t.busy = false)

/-- R160, R161: hardware reset: the block registers of R28, no port operation, no byte of memory changed; an idle block with
nothing presented then waits. The model's choices: that a reset may land at a busy block, and then between two port
operations (R161 offers it; assumption log 14), that it leaves the coming answers and inputs (14) and the trace (13), and
that nothing presented is an empty list of inputs (8). -/
def Obligations.HardwareReset : Prop :=
  ∀ (rest : List Input) (s : State), s.inputs = .hardReset :: rest →
    ∃ t, step s = .next t ∧ t.isRunning = false ∧ t.configured = false ∧ t.faulted = false ∧ t.err = .eOk ∧
      t.busy = false ∧ t.held = none ∧ t.frequencyHz = 0 ∧ t.prescalerCode = 0 ∧ t.periodTicks = 0 ∧
      t.dutyTicks = 0 ∧ t.dutyPct = 0 ∧ t.mem = s.mem ∧ t.params = s.params ∧ t.trace = s.trace ∧ t.inputs = rest ∧
      t.answers = s.answers ∧ t.restAnswer = s.restAnswer ∧ (rest = [] → step t = .next t)

/-- R41: another agent's write lands whether or not the block is busy, and changes nothing of the block. That it may land
while the block is busy is the model's choice (a) of R41 (assumption log 6), and that it is one byte at any physical address
is the model's form of it (log 15). -/
def Obligations.EnvironmentWrites : Prop :=
  ∀ (cell : Host.Cell) (rest : List Input) (s : State), s.inputs = .envWrite cell :: rest → Memory.wf s.mem →
    ∃ t, step s = .next t ∧ readByte t.mem cell.1 = cell.2 ∧ (∀ a, a ≠ cell.1 → readByte t.mem a = readByte s.mem a) ∧
      t = { s with mem := t.mem, inputs := rest }

/-- R147: a block whose port never answers again stays as it is, busy, at every step (how the model spells that a port never
answers: assumption log 10). -/
def Obligations.PortNeverAnswersHangs : Prop :=
  ∀ s : State, s.busy = true → BusyOk s → s.answers = [] → s.restAnswer = .wait → s.inputs = [] →
    ∀ n : Nat, Sys2Proof.core.run n s = .next s

/-- R111, R112, R147: a port operation that is answered late changes nothing of what the command does: the command goes on
from where it waited, if neither another agent's write nor a hardware reset comes next. That a late answer is an entry of
`answers` is the model's choice (assumption log 5, 10). -/
def Obligations.WaitChangesNothing : Prop :=
  ∀ (i : Instr) (s t u : State) (xs ys : List Answer), i.wellFormed = true → (∀ a ∈ xs, a ≠ .wait) →
    s.answers = xs ++ ys → exec i s = .next t →
    exec i { s with answers := xs ++ .wait :: ys } = .next u → u.busy = true →
    NoWriteNext u → NoResetNext u → step u = .next t

/-- R19, R29, R148: the status outputs show the registers and the number of `err`'s result code; codes 6 and 7 never occur. -/
def Obligations.StatusOutputs : Prop :=
  (∀ s : State, s.status.busy = s.busy ∧ s.status.faulted = s.faulted ∧ s.status.configured = s.configured ∧
    s.status.isRunning = s.isRunning ∧ s.status.frequencyHz = s.frequencyHz ∧
    s.status.prescalerCode = s.prescalerCode ∧ s.status.periodTicks = s.periodTicks ∧
    s.status.dutyTicks = s.dutyTicks ∧ s.status.dutyPct = s.dutyPct ∧ s.status.err = errBits s.err ∧
    s.status.err.toNat ≤ 5) ∧
  [ErrCode.eOk, .eIllegal, .eInput, .eState, .eHwAccess, .eFaulted].map (fun e => (errBits e).toNat) = [0, 1, 2, 3, 4, 5]

/-! ### Invariants -/

/-- R28: the reset values the spec states. R160: the block then waits for a command; the last clause says so of
`State.reset`, where nobody presents one (the model's choice, assumption log 8). -/
def Obligations.ResetValues : Prop :=
  State.reset.isRunning = false ∧ State.reset.configured = false ∧ State.reset.faulted = false ∧
  State.reset.err = .eOk ∧ State.reset.frequencyHz = 0 ∧ State.reset.prescalerCode = 0 ∧
  State.reset.periodTicks = 0 ∧ State.reset.dutyTicks = 0 ∧ State.reset.dutyPct = 0 ∧
  State.reset.busy = false ∧ State.reset.held = none ∧ step State.reset = .next State.reset

/-- The invariant holds right after reset (whose memory lists nothing: the model's choice, assumption log 1). -/
def Obligations.ResetMeetsInvariant : Prop := Inv State.reset

/-- R27, R24, R32: every step keeps the invariant, from every state that meets it. -/
def Obligations.StepKeepsInvariant : Prop :=
  ∀ s t : State, Inv s → step s = .next t → Inv t

/-- R143, R61: from a state that meets the invariant no step stops the model. -/
def Obligations.InvariantNeverStops : Prop :=
  ∀ s : State, Inv s → ∃ t, step s = .next t

/-- R27: after any number of steps from hardware reset, whatever the memory holds, the port answers, the host commands and
the environment writes, the configuration of an idle, unfaulted, configured block is consistent. -/
def Obligations.EveryRunKeepsConfig : Prop :=
  ∀ (m : Memory) (p : Params) (answers : List Answer) (rest : Answer) (inputs : List Input) (n : Nat) (t : State),
    Memory.wf m → Sys2Proof.core.run n (resetIn m p answers rest inputs) = .next t →
    t.configured = true → t.busy = false → t.faulted = false →
    (∃ d, divider t.prescalerCode = some d ∧ t.periodTicks.toNat = 24000000 / d / t.frequencyHz.toNat) ∧
    1 ≤ t.periodTicks.toNat ∧ t.periodTicks.toNat ≤ 23976 ∧
    t.dutyTicks.toNat = t.periodTicks.toNat * t.dutyPct.toNat / 100 ∧ t.dutyTicks.toNat ≤ t.periodTicks.toNat ∧
    t.dutyPct.toNat ≤ 100 ∧ 1 ≤ t.frequencyHz.toNat ∧ t.frequencyHz.toNat ≤ 24000000

/-- R26, R44: no step changes the parameters, and the trace only grows. That the machine carries them is the model's choice
(assumption log 3, 4, 13). -/
def Obligations.ParametersFixedTraceGrows : Prop :=
  ∀ s t : State, step s = .next t → t.params = s.params ∧ s.trace <+: t.trace

/-! ### Other agents between the port operations, and the premises of R175 -/

/-- R41 (a), R150, R26: a command with other agents' writes of any bytes in every gap before a port operation, each gap with
its own, is the interleaving of the two, and it completes. That the model takes choice (a) is assumption log 6, that the
writes of a gap stand in `answers` log 5. -/
def Obligations.InterferenceInEveryGap : Prop :=
  ∀ (i : Instr) (s : State) (gaps : List (List Host.Cell)) (more : List Answer), Admitted i s →
    s.answers = gaps.map .after ++ more → gaps.length = (program i s.isRunning).length →
    exec i s = .next (complete (interleave (program i s.isRunning) gaps
      (commandHead i (accept (encode i) { s with answers := more }))))

/-- R166, R41: in one `STOP`, writes of other agents to `PIN_CFG` in the window of its first RMW and to `PWM_CTRL` in the
window of its last are both lost: the command leaves what it would leave without them. That the model carries the
interference is its choice (assumption log 6, 15). -/
def Obligations.StopLosesBothUpdates : Prop :=
  ∀ (s : State) (xs ys : List Host.Cell) (more : List Answer), s.configured = true → s.faulted = false →
    Memory.wf s.mem → s.params.Legal → (∀ c ∈ xs, InWord c.1 (addrPinCfg s)) → (∀ c ∈ ys, InWord c.1 (addrPwmCtrl s)) →
    s.answers = [.ok, .ok, .after xs, .ok, .ok, .ok, .ok, .ok, .after ys, .ok] ++ more →
    ∃ t, exec .stop s = .next t ∧ EndedWith .eOk t ∧ t.isRunning = false ∧ t.answers = more ∧
      t.pinCfg = pinGpioWord s.params.gpioOutCode s.pinCfg ∧ t.pinDat = s.pinDat &&& 0xFFFFFFDF ∧
      t.pwmCtrl = s.pwmCtrl &&& 0xFFFFFF8F ∧
      MemorySameOutside [addrPinCfg s, addrPinDat s, addrPwmCtrl s] s t ∧
      t.trace = s.trace ++ traceStop s.pinCfg (pinGpioWord s.params.gpioOutCode s.pinCfg) s.pinDat
        (s.pinDat &&& 0xFFFFFFDF) s.pwmCtrl (s.pwmCtrl &&& 0xFFFFFF8F) ++ [.done .eOk]

/-- R33, R37: a step in which a waiting block goes on leaves every byte outside the four target registers as it was, but for
bytes that the answers to come say somebody else changes (assumption log 6, 7). -/
def Obligations.ResumedStepKeepsOtherBytes : Prop :=
  ∀ s t : State, Inv s → s.params.Legal → s.busy = true → NoWriteNext s → NoResetNext s → step s = .next t →
    ∀ a, ¬ InTargets s a → ¬ ChangedByOthers s a → readByte t.mem a = readByte s.mem a

/-- R175, R41 (b), R39: under the five launch premises a presented, admitted command ends, however late the port answers and
whatever other agents do outside the target registers, with the block registers, the trace and the target registers of the
command with nobody to disturb it. How the model carries answers, other agents and lateness: assumption log 5, 6, 7, 8, 10. -/
def Obligations.PremisesMakeCommandAtomic : Prop :=
  ∀ (i : Instr) (rest : List Input) (s : State), i.wellFormed = true → Memory.wf s.mem → s.busy = false →
    s.inputs = .command (encode i) :: rest → Admitted i s →
    NoInterference s → PlainStore s → PortAnswersInTheEnd s → NoResetWhileBusy s → AcquireOk s →
    ∃ t, exec i (undisturbed s) = .next t ∧
      ∃ (n : Nat) (v : State), Sys2Proof.core.run n s = .next v ∧ v.busy = false ∧ v.err = .eOk ∧ t.err = .eOk ∧
        v.held = t.held ∧ SameTiming t v ∧ SameDuty t v ∧ SameFlags t v ∧ v.trace = t.trace ∧
        v.pwmCtrl = t.pwmCtrl ∧ v.pwmPeriod = t.pwmPeriod ∧ v.pinCfg = t.pinCfg ∧ v.pinDat = t.pinDat
end

