-- ==== Sys2Proof/Laws/Decode.lean ====
section
/-! SUPPORT. The fields of a command word, the decoder and the opcode map as arithmetic on the word's number, where `omega`
decides. -/

namespace Sys2Proof

theorem opField_toNat (c : Word) : (opField c).toNat = c.toNat / 2 ^ 28 := by
  have := c.isLt
  simp [opField, BitVec.extractLsb'_toNat, Nat.shiftRight_eq_div_pow]; omega

theorem argField_toNat (c : Word) : (argField c).toNat = c.toNat % 2 ^ 28 := by
  simp [argField, BitVec.extractLsb'_toNat]

theorem pctField_toNat (c : Word) : (pctField c).toNat = c.toNat % 2 ^ 7 := by
  simp [pctField, BitVec.extractLsb'_toNat]

theorem pctReserved_toNat (c : Word) : (pctReserved c).toNat = c.toNat % 2 ^ 28 / 2 ^ 7 := by
  simp [pctReserved, BitVec.extractLsb'_toNat, Nat.shiftRight_eq_div_pow]; omega

theorem commandWord_toNat (op : BitVec 4) (arg : BitVec 28) :
    (commandWord op arg).toNat = op.toNat * 2 ^ 28 + arg.toNat := by
  have := op.isLt; have := arg.isLt
  simp [commandWord]; omega

/-- The decoder in numbers. -/
theorem decode_nat (c : Word) : decode c =
    if c.toNat / 2 ^ 28 = 1 then .ok (.init (c.toNat % 2 ^ 28))
    else if c.toNat / 2 ^ 28 = 2 then (if c.toNat % 2 ^ 28 = 0 then .ok .cfgps else .error .reservedBits)
    else if c.toNat / 2 ^ 28 = 3 then
      (if c.toNat % 2 ^ 28 / 2 ^ 7 = 0 then .ok (.run (c.toNat % 2 ^ 7)) else .error .reservedBits)
    else if c.toNat / 2 ^ 28 = 4 then (if c.toNat % 2 ^ 28 = 0 then .ok .stop else .error .reservedBits)
    else if c.toNat / 2 ^ 28 = 5 then
      (if c.toNat % 2 ^ 28 / 2 ^ 7 = 0 then .ok (.setduty (c.toNat % 2 ^ 7)) else .error .reservedBits)
    else if c.toNat / 2 ^ 28 = 6 then .ok (.reset (c.toNat % 2 ^ 28))
    else .error .unusedOpcode := by
  have e : ∀ n : BitVec 4, (opField c = n) ↔ c.toNat / 2 ^ 28 = n.toNat := fun n => by
    rw [← opField_toNat, BitVec.toNat_inj]
  have ea : (argField c = 0) ↔ c.toNat % 2 ^ 28 = 0 := by
    rw [← argField_toNat, ← BitVec.toNat_inj]; rfl
  have er : (pctReserved c = 0) ↔ c.toNat % 2 ^ 28 / 2 ^ 7 = 0 := by
    rw [← pctReserved_toNat, ← BitVec.toNat_inj]; rfl
  unfold decode decodeF decodeP decodeZ
  simp only [e, ea, er, argField_toNat, pctField_toNat]
  rfl

/-- Masking off the low `k` bits, in numbers. -/
theorem and_highMask_toNat (c m : Word) (k : Nat) (hk : k ≤ 32) (hm : m = BitVec.allOnes 32 <<< k) :
    (c &&& m).toNat = c.toNat / 2 ^ k * 2 ^ k := by
  have h : c &&& m = (c >>> k) <<< k := by
    subst hm
    apply BitVec.eq_of_getLsbD_eq
    intro i hi
    rw [BitVec.getLsbD_and, BitVec.getLsbD_shiftLeft, BitVec.getLsbD_shiftLeft, BitVec.getLsbD_ushiftRight,
      BitVec.getLsbD_allOnes]
    by_cases hik : i < k
    · simp [hik]
    · have h1 : k + (i - k) = i := by omega
      have h2 : i - k < 32 := by omega
      simp [hik, h1, h2, hi]
  rw [h, BitVec.toNat_shiftLeft, BitVec.toNat_ushiftRight, Nat.shiftRight_eq_div_pow, Nat.shiftLeft_eq]
  exact Nat.mod_eq_of_lt (lt_of_le_of_lt (Nat.div_mul_le_self _ _) c.isLt)

/-- Which words a row of the opcode map matches, in numbers. -/
theorem opcodeRow_spells_nat (i : Instr) (c : Word) : (opcodeRow i).spells c = true ↔
    match i with
    | .init _ => c.toNat / 2 ^ 28 = 1
    | .cfgps => c.toNat = 2 * 2 ^ 28
    | .run _ => c.toNat / 2 ^ 7 = 3 * 2 ^ 21
    | .stop => c.toNat = 4 * 2 ^ 28
    | .setduty _ => c.toNat / 2 ^ 7 = 5 * 2 ^ 21
    | .reset _ => c.toNat / 2 ^ 28 = 6 := by
  have h28 := and_highMask_toNat c 0xF0000000 28 (by decide) (by decide)
  have h7 := and_highMask_toNat c 0xFFFFFF80 7 (by decide) (by decide)
  have h0 := and_highMask_toNat c 0xFFFFFFFF 0 (by decide) (by decide)
  cases i <;> simp only [opcodeRow, OpcodeRow.spells, beq_iff_eq, ← BitVec.toNat_inj, h28, h7, h0] <;> simp <;> omega

end Sys2Proof
end

