-- ==== Sys2Proof/Laws/Memory.lean ====
section
/-! SUPPORT. Memory: a read after a write, at the byte and at the word; every operation keeps the canonical form; equal
reads make equal memories. -/

namespace Sys2Proof.Machine

@[simp] theorem readByte_nil (a : Nat) : readByte [] a = unwrittenByte := rfl

theorem readByte_cons (c : Host.Cell) (m : Memory) (a : Nat) :
    readByte (c :: m) a = if c.1 = a then c.2 else readByte m a := rfl

/-- An address below every listed one reads as an unlisted address. -/
theorem readByte_below (m : Memory) (a : Nat) (h : ∀ c ∈ m, a < c.1) : readByte m a = unwrittenByte := by
  induction m with
  | nil => rfl
  | cons c m ih =>
    have hc : a < c.1 := h c (by simp)
    rw [readByte_cons, if_neg (by omega), ih fun d hd => h d (by simp [hd])]

theorem readByte_consByte (a : Nat) (b : Byte) (m : Memory) (x : Nat) (h : ∀ c ∈ m, a < c.1) :
    readByte (consByte a b m) x = if x = a then b else readByte m x := by
  unfold consByte
  by_cases hb : b = unwrittenByte
  · rw [if_pos hb]
    by_cases hx : x = a
    · rw [if_pos hx, hx, hb, readByte_below m a h]
    · rw [if_neg hx]
  · rw [if_neg hb, readByte_cons]
    by_cases hx : x = a
    · simp [hx]
    · rw [if_neg hx, if_neg (by simpa using Ne.symm hx)]

/-- Writing puts no address into memory but its own. -/
theorem mem_writeByte (m : Memory) (a : Nat) (b : Byte) (c : Host.Cell) (hc : c ∈ writeByte m a b) :
    c = (a, b) ∨ c ∈ m := by
  induction m with
  | nil =>
    unfold writeByte consByte at hc
    split at hc
    · simp at hc
    · left; simpa using hc
  | cons d m ih =>
    unfold writeByte consByte at hc
    split at hc
    · split at hc
      · exact .inr hc
      · rcases List.mem_cons.1 hc with h | h
        · exact .inl h
        · exact .inr h
    · split at hc
      · split at hc
        · exact .inr (List.mem_cons_of_mem _ hc)
        · rcases List.mem_cons.1 hc with h | h
          · exact .inl h
          · exact .inr (List.mem_cons_of_mem _ h)
      · rcases List.mem_cons.1 hc with h | h
        · exact .inr (h ▸ List.mem_cons_self)
        · rcases ih h with h | h
          · exact .inl h
          · exact .inr (List.mem_cons_of_mem _ h)

theorem consByte_wf (a : Nat) (b : Byte) (m : Memory) (h : Memory.wf m) (ha : ∀ c ∈ m, a < c.1) :
    Memory.wf (consByte a b m) := by
  unfold consByte
  split
  · exact h
  · rename_i hb
    refine ⟨List.pairwise_cons.2 ⟨fun c hc => ha c hc, h.1⟩, fun c hc => ?_⟩
    rcases List.mem_cons.1 hc with rfl | hc
    · exact hb
    · exact h.2 c hc

theorem wf_tail {c : Host.Cell} {m : Memory} (h : Memory.wf (c :: m)) : Memory.wf m :=
  ⟨(List.pairwise_cons.1 h.1).2, fun d hd => h.2 d (List.mem_cons_of_mem _ hd)⟩

theorem wf_head_lt {c : Host.Cell} {m : Memory} (h : Memory.wf (c :: m)) : ∀ d ∈ m, c.1 < d.1 :=
  (List.pairwise_cons.1 h.1).1

/-- Every write keeps the canonical form. -/
theorem writeByte_wf (m : Memory) (a : Nat) (b : Byte) (h : Memory.wf m) : Memory.wf (writeByte m a b) := by
  induction m with
  | nil => exact consByte_wf a b [] h (by simp)
  | cons c m ih =>
    have hlt := wf_head_lt h
    unfold writeByte
    split
    · rename_i hac
      refine consByte_wf a b _ h fun d hd => ?_
      rcases List.mem_cons.1 hd with rfl | hd
      · exact hac
      · exact hac.trans (hlt d hd)
    · split
      · rename_i _ hac
        exact consByte_wf a b m (wf_tail h) fun d hd => hac ▸ hlt d hd
      · rename_i h1 h2
        have ih' := ih (wf_tail h)
        refine ⟨List.pairwise_cons.2 ⟨fun d hd => ?_, ih'.1⟩, fun d hd => ?_⟩
        · rcases mem_writeByte m a b d hd with rfl | hd
          · simp only; omega
          · exact hlt d hd
        · rcases List.mem_cons.1 hd with rfl | hd
          · exact h.2 _ List.mem_cons_self
          · exact ih'.2 d hd

/-- A byte read after a byte write, on a memory in canonical form. -/
theorem readByte_writeByte (m : Memory) (a : Nat) (b : Byte) (h : Memory.wf m) (x : Nat) :
    readByte (writeByte m a b) x = if x = a then b else readByte m x := by
  induction m with
  | nil => exact readByte_consByte a b [] x (by simp)
  | cons c m ih =>
    have hlt := wf_head_lt h
    unfold writeByte
    split
    · rename_i hac
      refine readByte_consByte a b _ x fun d hd => ?_
      rcases List.mem_cons.1 hd with rfl | hd
      · exact hac
      · exact hac.trans (hlt d hd)
    · split
      · rename_i _ hac
        rw [readByte_consByte a b m x fun d hd => hac ▸ hlt d hd, readByte_cons]
        by_cases hx : x = a
        · simp [hx]
        · rw [if_neg hx, if_neg hx, if_neg (by omega)]
      · rw [readByte_cons, readByte_cons, ih (wf_tail h)]
        by_cases hx : x = a
        · subst hx; rw [if_neg (by omega), if_pos rfl, if_pos rfl]
        · simp [hx]

theorem writeWord_wf (m : Memory) (a : Nat) (v : Word) (h : Memory.wf m) : Memory.wf (writeWord m a v) :=
  writeByte_wf _ _ _ (writeByte_wf _ _ _ (writeByte_wf _ _ _ (writeByte_wf _ _ _ h)))

/-- A byte read after a word write (R34): byte `k` of the word inside it, the old byte elsewhere. -/
theorem readByte_writeWord (m : Memory) (a : Nat) (v : Word) (h : Memory.wf m) (x : Nat) :
    readByte (writeWord m a v) x = if a ≤ x ∧ x < a + 4 then wordByte v (x - a) else readByte m x := by
  have h0 := writeByte_wf m a (wordByte v 0) h
  have h1 := writeByte_wf _ (a + 1) (wordByte v 1) h0
  have h2 := writeByte_wf _ (a + 2) (wordByte v 2) h1
  unfold writeWord
  rw [readByte_writeByte _ _ _ h2, readByte_writeByte _ _ _ h1, readByte_writeByte _ _ _ h0,
    readByte_writeByte _ _ _ h]
  by_cases hx : a ≤ x ∧ x < a + 4
  · rw [if_pos hx]
    obtain rfl | rfl | rfl | rfl : x = a + 3 ∨ x = a + 2 ∨ x = a + 1 ∨ x = a := by omega
    all_goals simp
  · rw [if_neg hx, if_neg (by omega), if_neg (by omega), if_neg (by omega), if_neg (by omega)]

theorem readByte_writeWord_outside (m : Memory) (a : Nat) (v : Word) (h : Memory.wf m) (x : Nat)
    (hx : ¬ (a ≤ x ∧ x < a + 4)) : readByte (writeWord m a v) x = readByte m x := by
  rw [readByte_writeWord m a v h, if_neg hx]

theorem writeBytes_cons (m : Memory) (c : Host.Cell) (cs : List Host.Cell) :
    writeBytes m (c :: cs) = writeBytes (writeByte m c.1 c.2) cs := rfl

theorem writeBytes_wf (m : Memory) (cs : List Host.Cell) (h : Memory.wf m) : Memory.wf (writeBytes m cs) := by
  induction cs generalizing m with
  | nil => exact h
  | cons c cs ih => exact ih _ (writeByte_wf m c.1 c.2 h)

/-- Writing bytes leaves every other address alone. -/
theorem readByte_writeBytes_outside (m : Memory) (cs : List Host.Cell) (h : Memory.wf m) (x : Nat)
    (hx : ∀ c ∈ cs, c.1 ≠ x) : readByte (writeBytes m cs) x = readByte m x := by
  induction cs generalizing m with
  | nil => rfl
  | cons c cs ih =>
    rw [writeBytes_cons, ih _ (writeByte_wf m c.1 c.2 h) fun d hd => hx d (by simp [hd]),
      readByte_writeByte m c.1 c.2 h, if_neg (Ne.symm (hx c (by simp)))]

/-- The four bytes of a word make it up again. -/
theorem wordBytes_append (v : Word) : wordByte v 3 ++ wordByte v 2 ++ wordByte v 1 ++ wordByte v 0 = v := by
  apply BitVec.eq_of_getLsbD_eq
  intro i hi
  simp only [wordByte, BitVec.getLsbD_append, BitVec.getLsbD_extractLsb']
  by_cases h0 : i < 8
  · simp [h0]
  by_cases h1 : i - 8 < 8
  · simp [h0, h1]; congr 1; omega
  by_cases h2 : i - 8 - 8 < 8
  · simp [h0, h1, h2]; congr 1; omega
  · have h3 : i - 8 - 8 - 8 < 8 := by omega
    simp [h0, h1, h2, h3]; congr 1; omega

/-- A word read after a word write to the same place (R33). -/
theorem readWord_writeWord_same (m : Memory) (a : Nat) (v : Word) (h : Memory.wf m) :
    readWord (writeWord m a v) a = v := by
  unfold readWord
  rw [readByte_writeWord _ _ _ h, readByte_writeWord _ _ _ h, readByte_writeWord _ _ _ h, readByte_writeWord _ _ _ h]
  simpa using wordBytes_append v

/-- A word read after a word write elsewhere. -/
theorem readWord_writeWord_other (m : Memory) (a b : Nat) (v : Word) (h : Memory.wf m) (hab : a + 4 ≤ b ∨ b + 4 ≤ a) :
    readWord (writeWord m a v) b = readWord m b := by
  unfold readWord
  rw [readByte_writeWord_outside _ _ _ h _ (by omega), readByte_writeWord_outside _ _ _ h _ (by omega),
    readByte_writeWord_outside _ _ _ h _ (by omega), readByte_writeWord_outside _ _ _ h _ (by omega)]

/-- In canonical form an entry is what its address reads as. -/
theorem readByte_of_mem {m : Memory} (h : Memory.wf m) {c : Host.Cell} (hc : c ∈ m) : readByte m c.1 = c.2 := by
  induction m with
  | nil => simp at hc
  | cons d m ih =>
    rw [readByte_cons]
    rcases List.mem_cons.1 hc with rfl | hc
    · simp
    · have := wf_head_lt h c hc
      rw [if_neg (by omega), ih (wf_tail h) hc]

end Sys2Proof.Machine
end

