-- ==== Sys2Proof/Laws/PerInstr.lean ====
section
/-! SUPPORT. Families stated per instruction. `EncodesOwnRow`: the word the encoder writes for a well-formed command matches
the command's own row of the opcode map (R55). -/

namespace Sys2Proof.Laws

/-- The encoder's word matches the command's row of R55. -/
def EncodesOwnRow.Statement (i : Instr) : Prop := i.wellFormed = true → (opcodeRow i).spells (encode i) = true

theorem EncodesOwnRow.init (f : Nat) : EncodesOwnRow.Statement (.init f) := fun h => by
  have hf : f < 268435456 := by simpa [Instr.wellFormed] using h
  rw [opcodeRow_spells_nat]; simp [encode, commandWord_toNat]

theorem EncodesOwnRow.cfgps : EncodesOwnRow.Statement .cfgps := fun _ => rfl

theorem EncodesOwnRow.run (p : Nat) : EncodesOwnRow.Statement (.run p) := fun h => by
  have hp : p < 128 := by simpa [Instr.wellFormed] using h
  rw [opcodeRow_spells_nat]; simp [encode, commandWord_toNat]; omega

theorem EncodesOwnRow.stop : EncodesOwnRow.Statement .stop := fun _ => rfl

theorem EncodesOwnRow.setduty (p : Nat) : EncodesOwnRow.Statement (.setduty p) := fun h => by
  have hp : p < 128 := by simpa [Instr.wellFormed] using h
  rw [opcodeRow_spells_nat]; simp [encode, commandWord_toNat]; omega

theorem EncodesOwnRow.reset (f : Nat) : EncodesOwnRow.Statement (.reset f) := fun h => by
  have hf : f < 268435456 := by simpa [Instr.wellFormed] using h
  rw [opcodeRow_spells_nat]; simp [encode, commandWord_toNat]; omega

end Sys2Proof.Laws
end

