-- ==== Sys2Proof/Laws/State.lean ====
section
/-! SUPPORT. What each named operation does to each field of the state, one lemma a field, so that no proof unfolds a record
update. -/

namespace Sys2Proof.Machine

@[simp] theorem record_frequencyHz (e : TraceEvent) (s : State) : (record e s).frequencyHz = s.frequencyHz := rfl
@[simp] theorem record_prescalerCode (e : TraceEvent) (s : State) : (record e s).prescalerCode = s.prescalerCode := rfl
@[simp] theorem record_periodTicks (e : TraceEvent) (s : State) : (record e s).periodTicks = s.periodTicks := rfl
@[simp] theorem record_dutyTicks (e : TraceEvent) (s : State) : (record e s).dutyTicks = s.dutyTicks := rfl
@[simp] theorem record_dutyPct (e : TraceEvent) (s : State) : (record e s).dutyPct = s.dutyPct := rfl
@[simp] theorem record_isRunning (e : TraceEvent) (s : State) : (record e s).isRunning = s.isRunning := rfl
@[simp] theorem record_configured (e : TraceEvent) (s : State) : (record e s).configured = s.configured := rfl
@[simp] theorem record_faulted (e : TraceEvent) (s : State) : (record e s).faulted = s.faulted := rfl
@[simp] theorem record_err (e : TraceEvent) (s : State) : (record e s).err = s.err := rfl
@[simp] theorem record_busy (e : TraceEvent) (s : State) : (record e s).busy = s.busy := rfl
@[simp] theorem record_curCmd (e : TraceEvent) (s : State) : (record e s).curCmd = s.curCmd := rfl
@[simp] theorem record_ustep (e : TraceEvent) (s : State) : (record e s).ustep = s.ustep := rfl
@[simp] theorem record_tmp (e : TraceEvent) (s : State) : (record e s).tmp = s.tmp := rfl
@[simp] theorem record_held (e : TraceEvent) (s : State) : (record e s).held = s.held := rfl
@[simp] theorem record_mem (e : TraceEvent) (s : State) : (record e s).mem = s.mem := rfl
@[simp] theorem record_params (e : TraceEvent) (s : State) : (record e s).params = s.params := rfl
@[simp] theorem record_answers (e : TraceEvent) (s : State) : (record e s).answers = s.answers := rfl
@[simp] theorem record_restAnswer (e : TraceEvent) (s : State) : (record e s).restAnswer = s.restAnswer := rfl
@[simp] theorem record_inputs (e : TraceEvent) (s : State) : (record e s).inputs = s.inputs := rfl
@[simp] theorem record_trace (e : TraceEvent) (s : State) : (record e s).trace = s.trace ++ [e] := rfl

@[simp] theorem dropAnswer_frequencyHz (s : State) : (dropAnswer s).frequencyHz = s.frequencyHz := rfl
@[simp] theorem dropAnswer_prescalerCode (s : State) : (dropAnswer s).prescalerCode = s.prescalerCode := rfl
@[simp] theorem dropAnswer_periodTicks (s : State) : (dropAnswer s).periodTicks = s.periodTicks := rfl
@[simp] theorem dropAnswer_dutyTicks (s : State) : (dropAnswer s).dutyTicks = s.dutyTicks := rfl
@[simp] theorem dropAnswer_dutyPct (s : State) : (dropAnswer s).dutyPct = s.dutyPct := rfl
@[simp] theorem dropAnswer_isRunning (s : State) : (dropAnswer s).isRunning = s.isRunning := rfl
@[simp] theorem dropAnswer_configured (s : State) : (dropAnswer s).configured = s.configured := rfl
@[simp] theorem dropAnswer_faulted (s : State) : (dropAnswer s).faulted = s.faulted := rfl
@[simp] theorem dropAnswer_err (s : State) : (dropAnswer s).err = s.err := rfl
@[simp] theorem dropAnswer_busy (s : State) : (dropAnswer s).busy = s.busy := rfl
@[simp] theorem dropAnswer_curCmd (s : State) : (dropAnswer s).curCmd = s.curCmd := rfl
@[simp] theorem dropAnswer_ustep (s : State) : (dropAnswer s).ustep = s.ustep := rfl
@[simp] theorem dropAnswer_tmp (s : State) : (dropAnswer s).tmp = s.tmp := rfl
@[simp] theorem dropAnswer_held (s : State) : (dropAnswer s).held = s.held := rfl
@[simp] theorem dropAnswer_mem (s : State) : (dropAnswer s).mem = s.mem := rfl
@[simp] theorem dropAnswer_params (s : State) : (dropAnswer s).params = s.params := rfl
@[simp] theorem dropAnswer_answers (s : State) : (dropAnswer s).answers = s.answers.tail := rfl
@[simp] theorem dropAnswer_restAnswer (s : State) : (dropAnswer s).restAnswer = s.restAnswer := rfl
@[simp] theorem dropAnswer_inputs (s : State) : (dropAnswer s).inputs = s.inputs := rfl
@[simp] theorem dropAnswer_trace (s : State) : (dropAnswer s).trace = s.trace := rfl

@[simp] theorem portAcquire_frequencyHz (w : Window) (s : State) : (portAcquire w s).frequencyHz = s.frequencyHz := rfl
@[simp] theorem portAcquire_prescalerCode (w : Window) (s : State) : (portAcquire w s).prescalerCode = s.prescalerCode := rfl
@[simp] theorem portAcquire_periodTicks (w : Window) (s : State) : (portAcquire w s).periodTicks = s.periodTicks := rfl
@[simp] theorem portAcquire_dutyTicks (w : Window) (s : State) : (portAcquire w s).dutyTicks = s.dutyTicks := rfl
@[simp] theorem portAcquire_dutyPct (w : Window) (s : State) : (portAcquire w s).dutyPct = s.dutyPct := rfl
@[simp] theorem portAcquire_isRunning (w : Window) (s : State) : (portAcquire w s).isRunning = s.isRunning := rfl
@[simp] theorem portAcquire_configured (w : Window) (s : State) : (portAcquire w s).configured = s.configured := rfl
@[simp] theorem portAcquire_faulted (w : Window) (s : State) : (portAcquire w s).faulted = s.faulted := rfl
@[simp] theorem portAcquire_err (w : Window) (s : State) : (portAcquire w s).err = s.err := rfl
@[simp] theorem portAcquire_busy (w : Window) (s : State) : (portAcquire w s).busy = s.busy := rfl
@[simp] theorem portAcquire_curCmd (w : Window) (s : State) : (portAcquire w s).curCmd = s.curCmd := rfl
@[simp] theorem portAcquire_ustep (w : Window) (s : State) : (portAcquire w s).ustep = s.ustep := rfl
@[simp] theorem portAcquire_tmp (w : Window) (s : State) : (portAcquire w s).tmp = s.tmp := rfl
@[simp] theorem portAcquire_held (w : Window) (s : State) : (portAcquire w s).held = some w := rfl
@[simp] theorem portAcquire_mem (w : Window) (s : State) : (portAcquire w s).mem = s.mem := rfl
@[simp] theorem portAcquire_params (w : Window) (s : State) : (portAcquire w s).params = s.params := rfl
@[simp] theorem portAcquire_answers (w : Window) (s : State) : (portAcquire w s).answers = s.answers := rfl
@[simp] theorem portAcquire_restAnswer (w : Window) (s : State) : (portAcquire w s).restAnswer = s.restAnswer := rfl
@[simp] theorem portAcquire_inputs (w : Window) (s : State) : (portAcquire w s).inputs = s.inputs := rfl
@[simp] theorem portAcquire_trace (w : Window) (s : State) : (portAcquire w s).trace = s.trace ++ [.acquire w true] := rfl

@[simp] theorem portRelease_frequencyHz (w : Window) (s : State) : (portRelease w s).frequencyHz = s.frequencyHz := rfl
@[simp] theorem portRelease_prescalerCode (w : Window) (s : State) : (portRelease w s).prescalerCode = s.prescalerCode := rfl
@[simp] theorem portRelease_periodTicks (w : Window) (s : State) : (portRelease w s).periodTicks = s.periodTicks := rfl
@[simp] theorem portRelease_dutyTicks (w : Window) (s : State) : (portRelease w s).dutyTicks = s.dutyTicks := rfl
@[simp] theorem portRelease_dutyPct (w : Window) (s : State) : (portRelease w s).dutyPct = s.dutyPct := rfl
@[simp] theorem portRelease_isRunning (w : Window) (s : State) : (portRelease w s).isRunning = s.isRunning := rfl
@[simp] theorem portRelease_configured (w : Window) (s : State) : (portRelease w s).configured = s.configured := rfl
@[simp] theorem portRelease_faulted (w : Window) (s : State) : (portRelease w s).faulted = s.faulted := rfl
@[simp] theorem portRelease_err (w : Window) (s : State) : (portRelease w s).err = s.err := rfl
@[simp] theorem portRelease_busy (w : Window) (s : State) : (portRelease w s).busy = s.busy := rfl
@[simp] theorem portRelease_curCmd (w : Window) (s : State) : (portRelease w s).curCmd = s.curCmd := rfl
@[simp] theorem portRelease_ustep (w : Window) (s : State) : (portRelease w s).ustep = s.ustep := rfl
@[simp] theorem portRelease_tmp (w : Window) (s : State) : (portRelease w s).tmp = s.tmp := rfl
@[simp] theorem portRelease_held (w : Window) (s : State) : (portRelease w s).held = none := rfl
@[simp] theorem portRelease_mem (w : Window) (s : State) : (portRelease w s).mem = s.mem := rfl
@[simp] theorem portRelease_params (w : Window) (s : State) : (portRelease w s).params = s.params := rfl
@[simp] theorem portRelease_answers (w : Window) (s : State) : (portRelease w s).answers = s.answers := rfl
@[simp] theorem portRelease_restAnswer (w : Window) (s : State) : (portRelease w s).restAnswer = s.restAnswer := rfl
@[simp] theorem portRelease_inputs (w : Window) (s : State) : (portRelease w s).inputs = s.inputs := rfl
@[simp] theorem portRelease_trace (w : Window) (s : State) : (portRelease w s).trace = s.trace ++ [.release w] := rfl

@[simp] theorem portRd_frequencyHz (w : Window) (off : Nat) (s : State) : (portRd w off s).frequencyHz = s.frequencyHz := rfl
@[simp] theorem portRd_prescalerCode (w : Window) (off : Nat) (s : State) : (portRd w off s).prescalerCode = s.prescalerCode := rfl
@[simp] theorem portRd_periodTicks (w : Window) (off : Nat) (s : State) : (portRd w off s).periodTicks = s.periodTicks := rfl
@[simp] theorem portRd_dutyTicks (w : Window) (off : Nat) (s : State) : (portRd w off s).dutyTicks = s.dutyTicks := rfl
@[simp] theorem portRd_dutyPct (w : Window) (off : Nat) (s : State) : (portRd w off s).dutyPct = s.dutyPct := rfl
@[simp] theorem portRd_isRunning (w : Window) (off : Nat) (s : State) : (portRd w off s).isRunning = s.isRunning := rfl
@[simp] theorem portRd_configured (w : Window) (off : Nat) (s : State) : (portRd w off s).configured = s.configured := rfl
@[simp] theorem portRd_faulted (w : Window) (off : Nat) (s : State) : (portRd w off s).faulted = s.faulted := rfl
@[simp] theorem portRd_err (w : Window) (off : Nat) (s : State) : (portRd w off s).err = s.err := rfl
@[simp] theorem portRd_busy (w : Window) (off : Nat) (s : State) : (portRd w off s).busy = s.busy := rfl
@[simp] theorem portRd_curCmd (w : Window) (off : Nat) (s : State) : (portRd w off s).curCmd = s.curCmd := rfl
@[simp] theorem portRd_ustep (w : Window) (off : Nat) (s : State) : (portRd w off s).ustep = s.ustep := rfl
@[simp] theorem portRd_tmp (w : Window) (off : Nat) (s : State) : (portRd w off s).tmp = readWord s.mem (portAddr s.params w off) := rfl
@[simp] theorem portRd_held (w : Window) (off : Nat) (s : State) : (portRd w off s).held = s.held := rfl
@[simp] theorem portRd_mem (w : Window) (off : Nat) (s : State) : (portRd w off s).mem = s.mem := rfl
@[simp] theorem portRd_params (w : Window) (off : Nat) (s : State) : (portRd w off s).params = s.params := rfl
@[simp] theorem portRd_answers (w : Window) (off : Nat) (s : State) : (portRd w off s).answers = s.answers := rfl
@[simp] theorem portRd_restAnswer (w : Window) (off : Nat) (s : State) : (portRd w off s).restAnswer = s.restAnswer := rfl
@[simp] theorem portRd_inputs (w : Window) (off : Nat) (s : State) : (portRd w off s).inputs = s.inputs := rfl
@[simp] theorem portRd_trace (w : Window) (off : Nat) (s : State) : (portRd w off s).trace = s.trace ++ [.rd w off (readWord s.mem (portAddr s.params w off))] := rfl

@[simp] theorem portRdGiven_frequencyHz (w : Window) (off : Nat) (v : Word) (fx : List Host.Cell) (s : State) : (portRdGiven w off v fx s).frequencyHz = s.frequencyHz := rfl
@[simp] theorem portRdGiven_prescalerCode (w : Window) (off : Nat) (v : Word) (fx : List Host.Cell) (s : State) : (portRdGiven w off v fx s).prescalerCode = s.prescalerCode := rfl
@[simp] theorem portRdGiven_periodTicks (w : Window) (off : Nat) (v : Word) (fx : List Host.Cell) (s : State) : (portRdGiven w off v fx s).periodTicks = s.periodTicks := rfl
@[simp] theorem portRdGiven_dutyTicks (w : Window) (off : Nat) (v : Word) (fx : List Host.Cell) (s : State) : (portRdGiven w off v fx s).dutyTicks = s.dutyTicks := rfl
@[simp] theorem portRdGiven_dutyPct (w : Window) (off : Nat) (v : Word) (fx : List Host.Cell) (s : State) : (portRdGiven w off v fx s).dutyPct = s.dutyPct := rfl
@[simp] theorem portRdGiven_isRunning (w : Window) (off : Nat) (v : Word) (fx : List Host.Cell) (s : State) : (portRdGiven w off v fx s).isRunning = s.isRunning := rfl
@[simp] theorem portRdGiven_configured (w : Window) (off : Nat) (v : Word) (fx : List Host.Cell) (s : State) : (portRdGiven w off v fx s).configured = s.configured := rfl
@[simp] theorem portRdGiven_faulted (w : Window) (off : Nat) (v : Word) (fx : List Host.Cell) (s : State) : (portRdGiven w off v fx s).faulted = s.faulted := rfl
@[simp] theorem portRdGiven_err (w : Window) (off : Nat) (v : Word) (fx : List Host.Cell) (s : State) : (portRdGiven w off v fx s).err = s.err := rfl
@[simp] theorem portRdGiven_busy (w : Window) (off : Nat) (v : Word) (fx : List Host.Cell) (s : State) : (portRdGiven w off v fx s).busy = s.busy := rfl
@[simp] theorem portRdGiven_curCmd (w : Window) (off : Nat) (v : Word) (fx : List Host.Cell) (s : State) : (portRdGiven w off v fx s).curCmd = s.curCmd := rfl
@[simp] theorem portRdGiven_ustep (w : Window) (off : Nat) (v : Word) (fx : List Host.Cell) (s : State) : (portRdGiven w off v fx s).ustep = s.ustep := rfl
@[simp] theorem portRdGiven_tmp (w : Window) (off : Nat) (v : Word) (fx : List Host.Cell) (s : State) : (portRdGiven w off v fx s).tmp = v := rfl
@[simp] theorem portRdGiven_held (w : Window) (off : Nat) (v : Word) (fx : List Host.Cell) (s : State) : (portRdGiven w off v fx s).held = s.held := rfl
@[simp] theorem portRdGiven_mem (w : Window) (off : Nat) (v : Word) (fx : List Host.Cell) (s : State) : (portRdGiven w off v fx s).mem = writeBytes s.mem fx := rfl
@[simp] theorem portRdGiven_params (w : Window) (off : Nat) (v : Word) (fx : List Host.Cell) (s : State) : (portRdGiven w off v fx s).params = s.params := rfl
@[simp] theorem portRdGiven_answers (w : Window) (off : Nat) (v : Word) (fx : List Host.Cell) (s : State) : (portRdGiven w off v fx s).answers = s.answers := rfl
@[simp] theorem portRdGiven_restAnswer (w : Window) (off : Nat) (v : Word) (fx : List Host.Cell) (s : State) : (portRdGiven w off v fx s).restAnswer = s.restAnswer := rfl
@[simp] theorem portRdGiven_inputs (w : Window) (off : Nat) (v : Word) (fx : List Host.Cell) (s : State) : (portRdGiven w off v fx s).inputs = s.inputs := rfl
@[simp] theorem portRdGiven_trace (w : Window) (off : Nat) (v : Word) (fx : List Host.Cell) (s : State) : (portRdGiven w off v fx s).trace = s.trace ++ [.rd w off v] := rfl

@[simp] theorem portWr_frequencyHz (w : Window) (off : Nat) (v : Word) (s : State) : (portWr w off v s).frequencyHz = s.frequencyHz := rfl
@[simp] theorem portWr_prescalerCode (w : Window) (off : Nat) (v : Word) (s : State) : (portWr w off v s).prescalerCode = s.prescalerCode := rfl
@[simp] theorem portWr_periodTicks (w : Window) (off : Nat) (v : Word) (s : State) : (portWr w off v s).periodTicks = s.periodTicks := rfl
@[simp] theorem portWr_dutyTicks (w : Window) (off : Nat) (v : Word) (s : State) : (portWr w off v s).dutyTicks = s.dutyTicks := rfl
@[simp] theorem portWr_dutyPct (w : Window) (off : Nat) (v : Word) (s : State) : (portWr w off v s).dutyPct = s.dutyPct := rfl
@[simp] theorem portWr_isRunning (w : Window) (off : Nat) (v : Word) (s : State) : (portWr w off v s).isRunning = s.isRunning := rfl
@[simp] theorem portWr_configured (w : Window) (off : Nat) (v : Word) (s : State) : (portWr w off v s).configured = s.configured := rfl
@[simp] theorem portWr_faulted (w : Window) (off : Nat) (v : Word) (s : State) : (portWr w off v s).faulted = s.faulted := rfl
@[simp] theorem portWr_err (w : Window) (off : Nat) (v : Word) (s : State) : (portWr w off v s).err = s.err := rfl
@[simp] theorem portWr_busy (w : Window) (off : Nat) (v : Word) (s : State) : (portWr w off v s).busy = s.busy := rfl
@[simp] theorem portWr_curCmd (w : Window) (off : Nat) (v : Word) (s : State) : (portWr w off v s).curCmd = s.curCmd := rfl
@[simp] theorem portWr_ustep (w : Window) (off : Nat) (v : Word) (s : State) : (portWr w off v s).ustep = s.ustep := rfl
@[simp] theorem portWr_tmp (w : Window) (off : Nat) (v : Word) (s : State) : (portWr w off v s).tmp = s.tmp := rfl
@[simp] theorem portWr_held (w : Window) (off : Nat) (v : Word) (s : State) : (portWr w off v s).held = s.held := rfl
@[simp] theorem portWr_mem (w : Window) (off : Nat) (v : Word) (s : State) : (portWr w off v s).mem = writeWord s.mem (portAddr s.params w off) v := rfl
@[simp] theorem portWr_params (w : Window) (off : Nat) (v : Word) (s : State) : (portWr w off v s).params = s.params := rfl
@[simp] theorem portWr_answers (w : Window) (off : Nat) (v : Word) (s : State) : (portWr w off v s).answers = s.answers := rfl
@[simp] theorem portWr_restAnswer (w : Window) (off : Nat) (v : Word) (s : State) : (portWr w off v s).restAnswer = s.restAnswer := rfl
@[simp] theorem portWr_inputs (w : Window) (off : Nat) (v : Word) (s : State) : (portWr w off v s).inputs = s.inputs := rfl
@[simp] theorem portWr_trace (w : Window) (off : Nat) (v : Word) (s : State) : (portWr w off v s).trace = s.trace ++ [.wr w off v] := rfl

@[simp] theorem accept_frequencyHz (c : Word) (s : State) : (accept c s).frequencyHz = s.frequencyHz := rfl
@[simp] theorem accept_prescalerCode (c : Word) (s : State) : (accept c s).prescalerCode = s.prescalerCode := rfl
@[simp] theorem accept_periodTicks (c : Word) (s : State) : (accept c s).periodTicks = s.periodTicks := rfl
@[simp] theorem accept_dutyTicks (c : Word) (s : State) : (accept c s).dutyTicks = s.dutyTicks := rfl
@[simp] theorem accept_dutyPct (c : Word) (s : State) : (accept c s).dutyPct = s.dutyPct := rfl
@[simp] theorem accept_isRunning (c : Word) (s : State) : (accept c s).isRunning = s.isRunning := rfl
@[simp] theorem accept_configured (c : Word) (s : State) : (accept c s).configured = s.configured := rfl
@[simp] theorem accept_faulted (c : Word) (s : State) : (accept c s).faulted = s.faulted := rfl
@[simp] theorem accept_err (c : Word) (s : State) : (accept c s).err = s.err := rfl
@[simp] theorem accept_busy (c : Word) (s : State) : (accept c s).busy = true := rfl
@[simp] theorem accept_curCmd (c : Word) (s : State) : (accept c s).curCmd = c := rfl
@[simp] theorem accept_ustep (c : Word) (s : State) : (accept c s).ustep = 0 := rfl
@[simp] theorem accept_tmp (c : Word) (s : State) : (accept c s).tmp = s.tmp := rfl
@[simp] theorem accept_held (c : Word) (s : State) : (accept c s).held = s.held := rfl
@[simp] theorem accept_mem (c : Word) (s : State) : (accept c s).mem = s.mem := rfl
@[simp] theorem accept_params (c : Word) (s : State) : (accept c s).params = s.params := rfl
@[simp] theorem accept_answers (c : Word) (s : State) : (accept c s).answers = s.answers := rfl
@[simp] theorem accept_restAnswer (c : Word) (s : State) : (accept c s).restAnswer = s.restAnswer := rfl
@[simp] theorem accept_inputs (c : Word) (s : State) : (accept c s).inputs = s.inputs := rfl
@[simp] theorem accept_trace (c : Word) (s : State) : (accept c s).trace = s.trace := rfl

@[simp] theorem finish_frequencyHz (e : ErrCode) (s : State) : (finish e s).frequencyHz = s.frequencyHz := rfl
@[simp] theorem finish_prescalerCode (e : ErrCode) (s : State) : (finish e s).prescalerCode = s.prescalerCode := rfl
@[simp] theorem finish_periodTicks (e : ErrCode) (s : State) : (finish e s).periodTicks = s.periodTicks := rfl
@[simp] theorem finish_dutyTicks (e : ErrCode) (s : State) : (finish e s).dutyTicks = s.dutyTicks := rfl
@[simp] theorem finish_dutyPct (e : ErrCode) (s : State) : (finish e s).dutyPct = s.dutyPct := rfl
@[simp] theorem finish_isRunning (e : ErrCode) (s : State) : (finish e s).isRunning = s.isRunning := rfl
@[simp] theorem finish_configured (e : ErrCode) (s : State) : (finish e s).configured = s.configured := rfl
@[simp] theorem finish_faulted (e : ErrCode) (s : State) : (finish e s).faulted = s.faulted := rfl
@[simp] theorem finish_err (e : ErrCode) (s : State) : (finish e s).err = e := rfl
@[simp] theorem finish_busy (e : ErrCode) (s : State) : (finish e s).busy = false := rfl
@[simp] theorem finish_curCmd (e : ErrCode) (s : State) : (finish e s).curCmd = s.curCmd := rfl
@[simp] theorem finish_ustep (e : ErrCode) (s : State) : (finish e s).ustep = s.ustep := rfl
@[simp] theorem finish_tmp (e : ErrCode) (s : State) : (finish e s).tmp = s.tmp := rfl
@[simp] theorem finish_held (e : ErrCode) (s : State) : (finish e s).held = s.held := rfl
@[simp] theorem finish_mem (e : ErrCode) (s : State) : (finish e s).mem = s.mem := rfl
@[simp] theorem finish_params (e : ErrCode) (s : State) : (finish e s).params = s.params := rfl
@[simp] theorem finish_answers (e : ErrCode) (s : State) : (finish e s).answers = s.answers := rfl
@[simp] theorem finish_restAnswer (e : ErrCode) (s : State) : (finish e s).restAnswer = s.restAnswer := rfl
@[simp] theorem finish_inputs (e : ErrCode) (s : State) : (finish e s).inputs = s.inputs := rfl
@[simp] theorem finish_trace (e : ErrCode) (s : State) : (finish e s).trace = s.trace ++ [.done e] := rfl

@[simp] theorem refuse_frequencyHz (e : ErrCode) (s : State) : (refuse e s).frequencyHz = s.frequencyHz := rfl
@[simp] theorem refuse_prescalerCode (e : ErrCode) (s : State) : (refuse e s).prescalerCode = s.prescalerCode := rfl
@[simp] theorem refuse_periodTicks (e : ErrCode) (s : State) : (refuse e s).periodTicks = s.periodTicks := rfl
@[simp] theorem refuse_dutyTicks (e : ErrCode) (s : State) : (refuse e s).dutyTicks = s.dutyTicks := rfl
@[simp] theorem refuse_dutyPct (e : ErrCode) (s : State) : (refuse e s).dutyPct = s.dutyPct := rfl
@[simp] theorem refuse_isRunning (e : ErrCode) (s : State) : (refuse e s).isRunning = s.isRunning := rfl
@[simp] theorem refuse_configured (e : ErrCode) (s : State) : (refuse e s).configured = s.configured := rfl
@[simp] theorem refuse_faulted (e : ErrCode) (s : State) : (refuse e s).faulted = s.faulted := rfl
@[simp] theorem refuse_err (e : ErrCode) (s : State) : (refuse e s).err = e := rfl
@[simp] theorem refuse_busy (e : ErrCode) (s : State) : (refuse e s).busy = false := rfl
@[simp] theorem refuse_curCmd (e : ErrCode) (s : State) : (refuse e s).curCmd = s.curCmd := rfl
@[simp] theorem refuse_ustep (e : ErrCode) (s : State) : (refuse e s).ustep = s.ustep := rfl
@[simp] theorem refuse_tmp (e : ErrCode) (s : State) : (refuse e s).tmp = s.tmp := rfl
@[simp] theorem refuse_held (e : ErrCode) (s : State) : (refuse e s).held = s.held := rfl
@[simp] theorem refuse_mem (e : ErrCode) (s : State) : (refuse e s).mem = s.mem := rfl
@[simp] theorem refuse_params (e : ErrCode) (s : State) : (refuse e s).params = s.params := rfl
@[simp] theorem refuse_answers (e : ErrCode) (s : State) : (refuse e s).answers = s.answers := rfl
@[simp] theorem refuse_restAnswer (e : ErrCode) (s : State) : (refuse e s).restAnswer = s.restAnswer := rfl
@[simp] theorem refuse_inputs (e : ErrCode) (s : State) : (refuse e s).inputs = s.inputs := rfl
@[simp] theorem refuse_trace (e : ErrCode) (s : State) : (refuse e s).trace = s.trace ++ [.done e] := rfl

@[simp] theorem complete_frequencyHz (s : State) : (complete s).frequencyHz = s.frequencyHz := rfl
@[simp] theorem complete_prescalerCode (s : State) : (complete s).prescalerCode = s.prescalerCode := rfl
@[simp] theorem complete_periodTicks (s : State) : (complete s).periodTicks = s.periodTicks := rfl
@[simp] theorem complete_dutyTicks (s : State) : (complete s).dutyTicks = s.dutyTicks := rfl
@[simp] theorem complete_dutyPct (s : State) : (complete s).dutyPct = s.dutyPct := rfl
@[simp] theorem complete_isRunning (s : State) : (complete s).isRunning = s.isRunning := rfl
@[simp] theorem complete_configured (s : State) : (complete s).configured = s.configured := rfl
@[simp] theorem complete_faulted (s : State) : (complete s).faulted = s.faulted := rfl
@[simp] theorem complete_err (s : State) : (complete s).err = .eOk := rfl
@[simp] theorem complete_busy (s : State) : (complete s).busy = false := rfl
@[simp] theorem complete_curCmd (s : State) : (complete s).curCmd = s.curCmd := rfl
@[simp] theorem complete_ustep (s : State) : (complete s).ustep = s.ustep := rfl
@[simp] theorem complete_tmp (s : State) : (complete s).tmp = s.tmp := rfl
@[simp] theorem complete_held (s : State) : (complete s).held = s.held := rfl
@[simp] theorem complete_mem (s : State) : (complete s).mem = s.mem := rfl
@[simp] theorem complete_params (s : State) : (complete s).params = s.params := rfl
@[simp] theorem complete_answers (s : State) : (complete s).answers = s.answers := rfl
@[simp] theorem complete_restAnswer (s : State) : (complete s).restAnswer = s.restAnswer := rfl
@[simp] theorem complete_inputs (s : State) : (complete s).inputs = s.inputs := rfl
@[simp] theorem complete_trace (s : State) : (complete s).trace = s.trace ++ [.done .eOk] := rfl

@[simp] theorem fatal_frequencyHz (w : Window) (s : State) : (fatal w s).frequencyHz = s.frequencyHz := rfl
@[simp] theorem fatal_prescalerCode (w : Window) (s : State) : (fatal w s).prescalerCode = s.prescalerCode := rfl
@[simp] theorem fatal_periodTicks (w : Window) (s : State) : (fatal w s).periodTicks = s.periodTicks := rfl
@[simp] theorem fatal_dutyTicks (w : Window) (s : State) : (fatal w s).dutyTicks = s.dutyTicks := rfl
@[simp] theorem fatal_dutyPct (w : Window) (s : State) : (fatal w s).dutyPct = s.dutyPct := rfl
@[simp] theorem fatal_isRunning (w : Window) (s : State) : (fatal w s).isRunning = s.isRunning := rfl
@[simp] theorem fatal_configured (w : Window) (s : State) : (fatal w s).configured = s.configured := rfl
@[simp] theorem fatal_faulted (w : Window) (s : State) : (fatal w s).faulted = true := rfl
@[simp] theorem fatal_err (w : Window) (s : State) : (fatal w s).err = .eHwAccess := rfl
@[simp] theorem fatal_busy (w : Window) (s : State) : (fatal w s).busy = false := rfl
@[simp] theorem fatal_curCmd (w : Window) (s : State) : (fatal w s).curCmd = s.curCmd := rfl
@[simp] theorem fatal_ustep (w : Window) (s : State) : (fatal w s).ustep = s.ustep := rfl
@[simp] theorem fatal_tmp (w : Window) (s : State) : (fatal w s).tmp = s.tmp := rfl
@[simp] theorem fatal_held (w : Window) (s : State) : (fatal w s).held = none := rfl
@[simp] theorem fatal_mem (w : Window) (s : State) : (fatal w s).mem = s.mem := rfl
@[simp] theorem fatal_params (w : Window) (s : State) : (fatal w s).params = s.params := rfl
@[simp] theorem fatal_answers (w : Window) (s : State) : (fatal w s).answers = s.answers := rfl
@[simp] theorem fatal_restAnswer (w : Window) (s : State) : (fatal w s).restAnswer = s.restAnswer := rfl
@[simp] theorem fatal_inputs (w : Window) (s : State) : (fatal w s).inputs = s.inputs := rfl
@[simp] theorem fatal_trace (w : Window) (s : State) : (fatal w s).trace = s.trace ++ [.acquire w false] ++ [.done .eHwAccess] := rfl

@[simp] theorem latchDuty_frequencyHz (s : State) : (latchDuty s).frequencyHz = s.frequencyHz := rfl
@[simp] theorem latchDuty_prescalerCode (s : State) : (latchDuty s).prescalerCode = s.prescalerCode := rfl
@[simp] theorem latchDuty_periodTicks (s : State) : (latchDuty s).periodTicks = s.periodTicks := rfl
@[simp] theorem latchDuty_dutyTicks (s : State) : (latchDuty s).dutyTicks = BitVec.ofNat 16 (dutyTicksOf s.periodTicks.toNat s.dutyPct.toNat) := rfl
@[simp] theorem latchDuty_dutyPct (s : State) : (latchDuty s).dutyPct = s.dutyPct := rfl
@[simp] theorem latchDuty_isRunning (s : State) : (latchDuty s).isRunning = s.isRunning := rfl
@[simp] theorem latchDuty_configured (s : State) : (latchDuty s).configured = s.configured := rfl
@[simp] theorem latchDuty_faulted (s : State) : (latchDuty s).faulted = s.faulted := rfl
@[simp] theorem latchDuty_err (s : State) : (latchDuty s).err = s.err := rfl
@[simp] theorem latchDuty_busy (s : State) : (latchDuty s).busy = s.busy := rfl
@[simp] theorem latchDuty_curCmd (s : State) : (latchDuty s).curCmd = s.curCmd := rfl
@[simp] theorem latchDuty_ustep (s : State) : (latchDuty s).ustep = s.ustep := rfl
@[simp] theorem latchDuty_tmp (s : State) : (latchDuty s).tmp = s.tmp := rfl
@[simp] theorem latchDuty_held (s : State) : (latchDuty s).held = s.held := rfl
@[simp] theorem latchDuty_mem (s : State) : (latchDuty s).mem = s.mem := rfl
@[simp] theorem latchDuty_params (s : State) : (latchDuty s).params = s.params := rfl
@[simp] theorem latchDuty_answers (s : State) : (latchDuty s).answers = s.answers := rfl
@[simp] theorem latchDuty_restAnswer (s : State) : (latchDuty s).restAnswer = s.restAnswer := rfl
@[simp] theorem latchDuty_inputs (s : State) : (latchDuty s).inputs = s.inputs := rfl
@[simp] theorem latchDuty_trace (s : State) : (latchDuty s).trace = s.trace := rfl

@[simp] theorem loadSelection_frequencyHz (f : Nat) (s : State) : (loadSelection f s).frequencyHz = BitVec.ofNat 28 f := rfl
@[simp] theorem loadSelection_prescalerCode (f : Nat) (s : State) : (loadSelection f s).prescalerCode = (select f).code := rfl
@[simp] theorem loadSelection_periodTicks (f : Nat) (s : State) : (loadSelection f s).periodTicks = BitVec.ofNat 16 (select f).period := rfl
@[simp] theorem loadSelection_dutyTicks (f : Nat) (s : State) : (loadSelection f s).dutyTicks = s.dutyTicks := rfl
@[simp] theorem loadSelection_dutyPct (f : Nat) (s : State) : (loadSelection f s).dutyPct = s.dutyPct := rfl
@[simp] theorem loadSelection_isRunning (f : Nat) (s : State) : (loadSelection f s).isRunning = s.isRunning := rfl
@[simp] theorem loadSelection_configured (f : Nat) (s : State) : (loadSelection f s).configured = s.configured := rfl
@[simp] theorem loadSelection_faulted (f : Nat) (s : State) : (loadSelection f s).faulted = s.faulted := rfl
@[simp] theorem loadSelection_err (f : Nat) (s : State) : (loadSelection f s).err = s.err := rfl
@[simp] theorem loadSelection_busy (f : Nat) (s : State) : (loadSelection f s).busy = s.busy := rfl
@[simp] theorem loadSelection_curCmd (f : Nat) (s : State) : (loadSelection f s).curCmd = s.curCmd := rfl
@[simp] theorem loadSelection_ustep (f : Nat) (s : State) : (loadSelection f s).ustep = s.ustep := rfl
@[simp] theorem loadSelection_tmp (f : Nat) (s : State) : (loadSelection f s).tmp = s.tmp := rfl
@[simp] theorem loadSelection_held (f : Nat) (s : State) : (loadSelection f s).held = s.held := rfl
@[simp] theorem loadSelection_mem (f : Nat) (s : State) : (loadSelection f s).mem = s.mem := rfl
@[simp] theorem loadSelection_params (f : Nat) (s : State) : (loadSelection f s).params = s.params := rfl
@[simp] theorem loadSelection_answers (f : Nat) (s : State) : (loadSelection f s).answers = s.answers := rfl
@[simp] theorem loadSelection_restAnswer (f : Nat) (s : State) : (loadSelection f s).restAnswer = s.restAnswer := rfl
@[simp] theorem loadSelection_inputs (f : Nat) (s : State) : (loadSelection f s).inputs = s.inputs := rfl
@[simp] theorem loadSelection_trace (f : Nat) (s : State) : (loadSelection f s).trace = s.trace := rfl

@[simp] theorem countStep_frequencyHz (s : State) : (countStep s).frequencyHz = s.frequencyHz := rfl
@[simp] theorem countStep_prescalerCode (s : State) : (countStep s).prescalerCode = s.prescalerCode := rfl
@[simp] theorem countStep_periodTicks (s : State) : (countStep s).periodTicks = s.periodTicks := rfl
@[simp] theorem countStep_dutyTicks (s : State) : (countStep s).dutyTicks = s.dutyTicks := rfl
@[simp] theorem countStep_dutyPct (s : State) : (countStep s).dutyPct = s.dutyPct := rfl
@[simp] theorem countStep_isRunning (s : State) : (countStep s).isRunning = s.isRunning := rfl
@[simp] theorem countStep_configured (s : State) : (countStep s).configured = s.configured := rfl
@[simp] theorem countStep_faulted (s : State) : (countStep s).faulted = s.faulted := rfl
@[simp] theorem countStep_err (s : State) : (countStep s).err = s.err := rfl
@[simp] theorem countStep_busy (s : State) : (countStep s).busy = s.busy := rfl
@[simp] theorem countStep_curCmd (s : State) : (countStep s).curCmd = s.curCmd := rfl
@[simp] theorem countStep_ustep (s : State) : (countStep s).ustep = s.ustep + 1 := rfl
@[simp] theorem countStep_tmp (s : State) : (countStep s).tmp = s.tmp := rfl
@[simp] theorem countStep_held (s : State) : (countStep s).held = s.held := rfl
@[simp] theorem countStep_mem (s : State) : (countStep s).mem = s.mem := rfl
@[simp] theorem countStep_params (s : State) : (countStep s).params = s.params := rfl
@[simp] theorem countStep_answers (s : State) : (countStep s).answers = s.answers := rfl
@[simp] theorem countStep_restAnswer (s : State) : (countStep s).restAnswer = s.restAnswer := rfl
@[simp] theorem countStep_inputs (s : State) : (countStep s).inputs = s.inputs := rfl
@[simp] theorem countStep_trace (s : State) : (countStep s).trace = s.trace := rfl

@[simp] theorem envWrite_frequencyHz (c : Host.Cell) (s : State) : (envWrite c s).frequencyHz = s.frequencyHz := rfl
@[simp] theorem envWrite_prescalerCode (c : Host.Cell) (s : State) : (envWrite c s).prescalerCode = s.prescalerCode := rfl
@[simp] theorem envWrite_periodTicks (c : Host.Cell) (s : State) : (envWrite c s).periodTicks = s.periodTicks := rfl
@[simp] theorem envWrite_dutyTicks (c : Host.Cell) (s : State) : (envWrite c s).dutyTicks = s.dutyTicks := rfl
@[simp] theorem envWrite_dutyPct (c : Host.Cell) (s : State) : (envWrite c s).dutyPct = s.dutyPct := rfl
@[simp] theorem envWrite_isRunning (c : Host.Cell) (s : State) : (envWrite c s).isRunning = s.isRunning := rfl
@[simp] theorem envWrite_configured (c : Host.Cell) (s : State) : (envWrite c s).configured = s.configured := rfl
@[simp] theorem envWrite_faulted (c : Host.Cell) (s : State) : (envWrite c s).faulted = s.faulted := rfl
@[simp] theorem envWrite_err (c : Host.Cell) (s : State) : (envWrite c s).err = s.err := rfl
@[simp] theorem envWrite_busy (c : Host.Cell) (s : State) : (envWrite c s).busy = s.busy := rfl
@[simp] theorem envWrite_curCmd (c : Host.Cell) (s : State) : (envWrite c s).curCmd = s.curCmd := rfl
@[simp] theorem envWrite_ustep (c : Host.Cell) (s : State) : (envWrite c s).ustep = s.ustep := rfl
@[simp] theorem envWrite_tmp (c : Host.Cell) (s : State) : (envWrite c s).tmp = s.tmp := rfl
@[simp] theorem envWrite_held (c : Host.Cell) (s : State) : (envWrite c s).held = s.held := rfl
@[simp] theorem envWrite_mem (c : Host.Cell) (s : State) : (envWrite c s).mem = writeByte s.mem c.1 c.2 := rfl
@[simp] theorem envWrite_params (c : Host.Cell) (s : State) : (envWrite c s).params = s.params := rfl
@[simp] theorem envWrite_answers (c : Host.Cell) (s : State) : (envWrite c s).answers = s.answers := rfl
@[simp] theorem envWrite_restAnswer (c : Host.Cell) (s : State) : (envWrite c s).restAnswer = s.restAnswer := rfl
@[simp] theorem envWrite_inputs (c : Host.Cell) (s : State) : (envWrite c s).inputs = s.inputs := rfl
@[simp] theorem envWrite_trace (c : Host.Cell) (s : State) : (envWrite c s).trace = s.trace := rfl

@[simp] theorem envWrites_frequencyHz (cells : List Host.Cell) (s : State) : (envWrites cells s).frequencyHz = s.frequencyHz := rfl
@[simp] theorem envWrites_prescalerCode (cells : List Host.Cell) (s : State) : (envWrites cells s).prescalerCode = s.prescalerCode := rfl
@[simp] theorem envWrites_periodTicks (cells : List Host.Cell) (s : State) : (envWrites cells s).periodTicks = s.periodTicks := rfl
@[simp] theorem envWrites_dutyTicks (cells : List Host.Cell) (s : State) : (envWrites cells s).dutyTicks = s.dutyTicks := rfl
@[simp] theorem envWrites_dutyPct (cells : List Host.Cell) (s : State) : (envWrites cells s).dutyPct = s.dutyPct := rfl
@[simp] theorem envWrites_isRunning (cells : List Host.Cell) (s : State) : (envWrites cells s).isRunning = s.isRunning := rfl
@[simp] theorem envWrites_configured (cells : List Host.Cell) (s : State) : (envWrites cells s).configured = s.configured := rfl
@[simp] theorem envWrites_faulted (cells : List Host.Cell) (s : State) : (envWrites cells s).faulted = s.faulted := rfl
@[simp] theorem envWrites_err (cells : List Host.Cell) (s : State) : (envWrites cells s).err = s.err := rfl
@[simp] theorem envWrites_busy (cells : List Host.Cell) (s : State) : (envWrites cells s).busy = s.busy := rfl
@[simp] theorem envWrites_curCmd (cells : List Host.Cell) (s : State) : (envWrites cells s).curCmd = s.curCmd := rfl
@[simp] theorem envWrites_ustep (cells : List Host.Cell) (s : State) : (envWrites cells s).ustep = s.ustep := rfl
@[simp] theorem envWrites_tmp (cells : List Host.Cell) (s : State) : (envWrites cells s).tmp = s.tmp := rfl
@[simp] theorem envWrites_held (cells : List Host.Cell) (s : State) : (envWrites cells s).held = s.held := rfl
@[simp] theorem envWrites_mem (cells : List Host.Cell) (s : State) : (envWrites cells s).mem = writeBytes s.mem cells := rfl
@[simp] theorem envWrites_params (cells : List Host.Cell) (s : State) : (envWrites cells s).params = s.params := rfl
@[simp] theorem envWrites_answers (cells : List Host.Cell) (s : State) : (envWrites cells s).answers = s.answers := rfl
@[simp] theorem envWrites_restAnswer (cells : List Host.Cell) (s : State) : (envWrites cells s).restAnswer = s.restAnswer := rfl
@[simp] theorem envWrites_inputs (cells : List Host.Cell) (s : State) : (envWrites cells s).inputs = s.inputs := rfl
@[simp] theorem envWrites_trace (cells : List Host.Cell) (s : State) : (envWrites cells s).trace = s.trace := rfl

@[simp] theorem hardReset_frequencyHz (s : State) : (hardReset s).frequencyHz = 0 := rfl
@[simp] theorem hardReset_prescalerCode (s : State) : (hardReset s).prescalerCode = 0 := rfl
@[simp] theorem hardReset_periodTicks (s : State) : (hardReset s).periodTicks = 0 := rfl
@[simp] theorem hardReset_dutyTicks (s : State) : (hardReset s).dutyTicks = 0 := rfl
@[simp] theorem hardReset_dutyPct (s : State) : (hardReset s).dutyPct = 0 := rfl
@[simp] theorem hardReset_isRunning (s : State) : (hardReset s).isRunning = false := rfl
@[simp] theorem hardReset_configured (s : State) : (hardReset s).configured = false := rfl
@[simp] theorem hardReset_faulted (s : State) : (hardReset s).faulted = false := rfl
@[simp] theorem hardReset_err (s : State) : (hardReset s).err = .eOk := rfl
@[simp] theorem hardReset_busy (s : State) : (hardReset s).busy = false := rfl
@[simp] theorem hardReset_curCmd (s : State) : (hardReset s).curCmd = 0 := rfl
@[simp] theorem hardReset_ustep (s : State) : (hardReset s).ustep = 0 := rfl
@[simp] theorem hardReset_tmp (s : State) : (hardReset s).tmp = 0 := rfl
@[simp] theorem hardReset_held (s : State) : (hardReset s).held = none := rfl
@[simp] theorem hardReset_mem (s : State) : (hardReset s).mem = s.mem := rfl
@[simp] theorem hardReset_params (s : State) : (hardReset s).params = s.params := rfl
@[simp] theorem hardReset_answers (s : State) : (hardReset s).answers = s.answers := rfl
@[simp] theorem hardReset_restAnswer (s : State) : (hardReset s).restAnswer = s.restAnswer := rfl
@[simp] theorem hardReset_inputs (s : State) : (hardReset s).inputs = s.inputs := rfl
@[simp] theorem hardReset_trace (s : State) : (hardReset s).trace = s.trace := rfl

@[simp] theorem initHead_frequencyHz (f : Nat) (s : State) : (initHead f s).frequencyHz = BitVec.ofNat 28 f := rfl
@[simp] theorem initHead_prescalerCode (f : Nat) (s : State) : (initHead f s).prescalerCode = (select f).code := rfl
@[simp] theorem initHead_periodTicks (f : Nat) (s : State) : (initHead f s).periodTicks = BitVec.ofNat 16 (select f).period := rfl
@[simp] theorem initHead_dutyTicks (f : Nat) (s : State) : (initHead f s).dutyTicks = 0 := rfl
@[simp] theorem initHead_dutyPct (f : Nat) (s : State) : (initHead f s).dutyPct = 0 := rfl
@[simp] theorem initHead_isRunning (f : Nat) (s : State) : (initHead f s).isRunning = false := rfl
@[simp] theorem initHead_configured (f : Nat) (s : State) : (initHead f s).configured = s.configured := rfl
@[simp] theorem initHead_faulted (f : Nat) (s : State) : (initHead f s).faulted = s.faulted := rfl
@[simp] theorem initHead_err (f : Nat) (s : State) : (initHead f s).err = s.err := rfl
@[simp] theorem initHead_busy (f : Nat) (s : State) : (initHead f s).busy = s.busy := rfl
@[simp] theorem initHead_curCmd (f : Nat) (s : State) : (initHead f s).curCmd = s.curCmd := rfl
@[simp] theorem initHead_ustep (f : Nat) (s : State) : (initHead f s).ustep = s.ustep := rfl
@[simp] theorem initHead_tmp (f : Nat) (s : State) : (initHead f s).tmp = s.tmp := rfl
@[simp] theorem initHead_held (f : Nat) (s : State) : (initHead f s).held = s.held := rfl
@[simp] theorem initHead_mem (f : Nat) (s : State) : (initHead f s).mem = s.mem := rfl
@[simp] theorem initHead_params (f : Nat) (s : State) : (initHead f s).params = s.params := rfl
@[simp] theorem initHead_answers (f : Nat) (s : State) : (initHead f s).answers = s.answers := rfl
@[simp] theorem initHead_restAnswer (f : Nat) (s : State) : (initHead f s).restAnswer = s.restAnswer := rfl
@[simp] theorem initHead_inputs (f : Nat) (s : State) : (initHead f s).inputs = s.inputs := rfl
@[simp] theorem initHead_trace (f : Nat) (s : State) : (initHead f s).trace = s.trace := rfl

@[simp] theorem resetHead_frequencyHz (f : Nat) (s : State) : (resetHead f s).frequencyHz = BitVec.ofNat 28 f := rfl
@[simp] theorem resetHead_prescalerCode (f : Nat) (s : State) : (resetHead f s).prescalerCode = (select f).code := rfl
@[simp] theorem resetHead_periodTicks (f : Nat) (s : State) : (resetHead f s).periodTicks = BitVec.ofNat 16 (select f).period := rfl
@[simp] theorem resetHead_dutyTicks (f : Nat) (s : State) : (resetHead f s).dutyTicks = BitVec.ofNat 16 (dutyTicksOf (BitVec.ofNat 16 (select f).period).toNat s.dutyPct.toNat) := rfl
@[simp] theorem resetHead_dutyPct (f : Nat) (s : State) : (resetHead f s).dutyPct = s.dutyPct := rfl
@[simp] theorem resetHead_isRunning (f : Nat) (s : State) : (resetHead f s).isRunning = s.isRunning := rfl
@[simp] theorem resetHead_configured (f : Nat) (s : State) : (resetHead f s).configured = s.configured := rfl
@[simp] theorem resetHead_faulted (f : Nat) (s : State) : (resetHead f s).faulted = s.faulted := rfl
@[simp] theorem resetHead_err (f : Nat) (s : State) : (resetHead f s).err = s.err := rfl
@[simp] theorem resetHead_busy (f : Nat) (s : State) : (resetHead f s).busy = s.busy := rfl
@[simp] theorem resetHead_curCmd (f : Nat) (s : State) : (resetHead f s).curCmd = s.curCmd := rfl
@[simp] theorem resetHead_ustep (f : Nat) (s : State) : (resetHead f s).ustep = s.ustep := rfl
@[simp] theorem resetHead_tmp (f : Nat) (s : State) : (resetHead f s).tmp = s.tmp := rfl
@[simp] theorem resetHead_held (f : Nat) (s : State) : (resetHead f s).held = s.held := rfl
@[simp] theorem resetHead_mem (f : Nat) (s : State) : (resetHead f s).mem = s.mem := rfl
@[simp] theorem resetHead_params (f : Nat) (s : State) : (resetHead f s).params = s.params := rfl
@[simp] theorem resetHead_answers (f : Nat) (s : State) : (resetHead f s).answers = s.answers := rfl
@[simp] theorem resetHead_restAnswer (f : Nat) (s : State) : (resetHead f s).restAnswer = s.restAnswer := rfl
@[simp] theorem resetHead_inputs (f : Nat) (s : State) : (resetHead f s).inputs = s.inputs := rfl
@[simp] theorem resetHead_trace (f : Nat) (s : State) : (resetHead f s).trace = s.trace := rfl

@[simp] theorem runHead_frequencyHz (p : Nat) (s : State) : (runHead p s).frequencyHz = s.frequencyHz := rfl
@[simp] theorem runHead_prescalerCode (p : Nat) (s : State) : (runHead p s).prescalerCode = s.prescalerCode := rfl
@[simp] theorem runHead_periodTicks (p : Nat) (s : State) : (runHead p s).periodTicks = s.periodTicks := rfl
@[simp] theorem runHead_dutyTicks (p : Nat) (s : State) : (runHead p s).dutyTicks = s.dutyTicks := rfl
@[simp] theorem runHead_dutyPct (p : Nat) (s : State) : (runHead p s).dutyPct = BitVec.ofNat 7 p := rfl
@[simp] theorem runHead_isRunning (p : Nat) (s : State) : (runHead p s).isRunning = s.isRunning := rfl
@[simp] theorem runHead_configured (p : Nat) (s : State) : (runHead p s).configured = s.configured := rfl
@[simp] theorem runHead_faulted (p : Nat) (s : State) : (runHead p s).faulted = s.faulted := rfl
@[simp] theorem runHead_err (p : Nat) (s : State) : (runHead p s).err = s.err := rfl
@[simp] theorem runHead_busy (p : Nat) (s : State) : (runHead p s).busy = s.busy := rfl
@[simp] theorem runHead_curCmd (p : Nat) (s : State) : (runHead p s).curCmd = s.curCmd := rfl
@[simp] theorem runHead_ustep (p : Nat) (s : State) : (runHead p s).ustep = s.ustep := rfl
@[simp] theorem runHead_tmp (p : Nat) (s : State) : (runHead p s).tmp = s.tmp := rfl
@[simp] theorem runHead_held (p : Nat) (s : State) : (runHead p s).held = s.held := rfl
@[simp] theorem runHead_mem (p : Nat) (s : State) : (runHead p s).mem = s.mem := rfl
@[simp] theorem runHead_params (p : Nat) (s : State) : (runHead p s).params = s.params := rfl
@[simp] theorem runHead_answers (p : Nat) (s : State) : (runHead p s).answers = s.answers := rfl
@[simp] theorem runHead_restAnswer (p : Nat) (s : State) : (runHead p s).restAnswer = s.restAnswer := rfl
@[simp] theorem runHead_inputs (p : Nat) (s : State) : (runHead p s).inputs = s.inputs := rfl
@[simp] theorem runHead_trace (p : Nat) (s : State) : (runHead p s).trace = s.trace := rfl

@[simp] theorem setdutyHead_frequencyHz (p : Nat) (s : State) : (setdutyHead p s).frequencyHz = s.frequencyHz := rfl
@[simp] theorem setdutyHead_prescalerCode (p : Nat) (s : State) : (setdutyHead p s).prescalerCode = s.prescalerCode := rfl
@[simp] theorem setdutyHead_periodTicks (p : Nat) (s : State) : (setdutyHead p s).periodTicks = s.periodTicks := rfl
@[simp] theorem setdutyHead_dutyTicks (p : Nat) (s : State) : (setdutyHead p s).dutyTicks = BitVec.ofNat 16 (dutyTicksOf s.periodTicks.toNat (BitVec.ofNat 7 p).toNat) := rfl
@[simp] theorem setdutyHead_dutyPct (p : Nat) (s : State) : (setdutyHead p s).dutyPct = BitVec.ofNat 7 p := rfl
@[simp] theorem setdutyHead_isRunning (p : Nat) (s : State) : (setdutyHead p s).isRunning = s.isRunning := rfl
@[simp] theorem setdutyHead_configured (p : Nat) (s : State) : (setdutyHead p s).configured = s.configured := rfl
@[simp] theorem setdutyHead_faulted (p : Nat) (s : State) : (setdutyHead p s).faulted = s.faulted := rfl
@[simp] theorem setdutyHead_err (p : Nat) (s : State) : (setdutyHead p s).err = s.err := rfl
@[simp] theorem setdutyHead_busy (p : Nat) (s : State) : (setdutyHead p s).busy = s.busy := rfl
@[simp] theorem setdutyHead_curCmd (p : Nat) (s : State) : (setdutyHead p s).curCmd = s.curCmd := rfl
@[simp] theorem setdutyHead_ustep (p : Nat) (s : State) : (setdutyHead p s).ustep = s.ustep := rfl
@[simp] theorem setdutyHead_tmp (p : Nat) (s : State) : (setdutyHead p s).tmp = s.tmp := rfl
@[simp] theorem setdutyHead_held (p : Nat) (s : State) : (setdutyHead p s).held = s.held := rfl
@[simp] theorem setdutyHead_mem (p : Nat) (s : State) : (setdutyHead p s).mem = s.mem := rfl
@[simp] theorem setdutyHead_params (p : Nat) (s : State) : (setdutyHead p s).params = s.params := rfl
@[simp] theorem setdutyHead_answers (p : Nat) (s : State) : (setdutyHead p s).answers = s.answers := rfl
@[simp] theorem setdutyHead_restAnswer (p : Nat) (s : State) : (setdutyHead p s).restAnswer = s.restAnswer := rfl
@[simp] theorem setdutyHead_inputs (p : Nat) (s : State) : (setdutyHead p s).inputs = s.inputs := rfl
@[simp] theorem setdutyHead_trace (p : Nat) (s : State) : (setdutyHead p s).trace = s.trace := rfl

end Sys2Proof.Machine
end

