-- ==== Sys2Proof/Laws/Sequencer.lean ====
section
/-! SUPPORT. What the sequencer can do, said once: one equation per case of a port operation, and the cases of a command. -/

namespace Sys2Proof.Machine

@[simp] theorem runOps_nil (s : State) : runOps [] s = complete s := rfl

theorem runOps_wait (op : MicroOp) (ops : List MicroOp) (s : State) (h : portReply op.port s = .wait) :
    runOps (op :: ops) s = dropAnswer s := by
  rw [runOps, h]

theorem runOps_fail (op : MicroOp) (ops : List MicroOp) (s : State) (h : portReply op.port s = .fail) :
    runOps (op :: ops) s = fatal (portWindow op.port) (dropAnswer s) := by
  rw [runOps, h]

theorem runOps_ok (op : MicroOp) (ops : List MicroOp) (s : State) (h : portReply op.port s = .ok) :
    runOps (op :: ops) s = runOps ops (advance op (dropAnswer s)) := by
  rw [runOps, h]

theorem runOps_after (op : MicroOp) (ops : List MicroOp) (s : State) (cells : List Host.Cell)
    (h : portReply op.port s = .after cells) :
    runOps (op :: ops) s = runOps ops (advance op (envWrites cells (dropAnswer s))) := by
  rw [runOps, h]

theorem runOps_reads (op : MicroOp) (ops : List MicroOp) (s : State) (v : Word) (fx : List Host.Cell)
    (h : portReply op.port s = .reads v fx) :
    runOps (op :: ops) s = runOps ops (advanceGiven op v fx (dropAnswer s)) := by
  rw [runOps, h]

/-- An answer `ok` is a reply `ok` to whatever is issued. -/
theorem portReply_of_ok (op : PortOp) (s : State) (h : nextAnswer s = .ok) : portReply op s = .ok := by
  unfold portReply; rw [h]

theorem portReply_of_wait (op : PortOp) (s : State) (h : nextAnswer s = .wait) : portReply op s = .wait := by
  unfold portReply; rw [h]

theorem portReply_of_after (op : PortOp) (s : State) (cells : List Host.Cell) (h : nextAnswer s = .after cells) :
    portReply op s = .after cells := by
  unfold portReply; rw [h]

/-- Only an answer that brings writes is a reply that does. -/
theorem portReply_after (op : PortOp) (s : State) (cells : List Host.Cell) (h : portReply op s = .after cells) :
    nextAnswer s = .after cells := by
  unfold portReply at h
  split at h <;> cases op <;> simp_all

/-- Only a `Rd` is answered with a word (R26). -/
theorem portReply_reads (op : PortOp) (s : State) (v : Word) (fx : List Host.Cell) (h : portReply op s = .reads v fx) :
    nextAnswer s = .reads v fx ∧ ∃ w off, op = .rd w off := by
  unfold portReply at h
  split at h <;> cases op <;> simp_all

/-- Only an `Acquire` is answered `fail` (R33, R147). -/
theorem portReply_fail_acquire (op : PortOp) (s : State) (h : portReply op s = .fail) :
    nextAnswer s = .fail ∧ ∃ w, op = .acquire w := by
  unfold portReply at h
  split at h <;> cases op <;> simp_all

/-- What a run through port operations can do: whatever holds along the way (`P`, with the list still to do) decides what
holds at each of the three ends (`Q`). -/
theorem runOps_induct (P : List MicroOp → State → Prop) (Q : State → Prop)
    (done : ∀ s, P [] s → Q (complete s))
    (wait : ∀ op ops s, P (op :: ops) s → portReply op.port s = .wait → Q (dropAnswer s))
    (fail : ∀ op ops s, P (op :: ops) s → portReply op.port s = .fail → Q (fatal (portWindow op.port) (dropAnswer s)))
    (next : ∀ op ops s, P (op :: ops) s → portReply op.port s = .ok → P ops (advance op (dropAnswer s)))
    (after : ∀ op ops s cells, P (op :: ops) s → portReply op.port s = .after cells →
      P ops (advance op (envWrites cells (dropAnswer s))))
    (reads : ∀ op ops s v fx, P (op :: ops) s → portReply op.port s = .reads v fx →
      P ops (advanceGiven op v fx (dropAnswer s)))
    (ops : List MicroOp) (s : State) (h : P ops s) : Q (runOps ops s) := by
  induction ops generalizing s with
  | nil => exact done s h
  | cons op ops ih =>
    cases hr : portReply op.port s with
    | wait => rw [runOps_wait op ops s hr]; exact wait op ops s h hr
    | fail => rw [runOps_fail op ops s hr]; exact fail op ops s h hr
    | ok => rw [runOps_ok op ops s hr]; exact ih _ (next op ops s h hr)
    | after cells => rw [runOps_after op ops s cells hr]; exact ih _ (after op ops s cells h hr)
    | reads v fx => rw [runOps_reads op ops s v fx hr]; exact ih _ (reads op ops s v fx h hr)

/-- An admitted command runs its port operations from the state its register lines leave (R110). -/
theorem execute_admitted (i : Instr) (head : State → State) (s : State) (h : admission (.ok i) s = .eOk) :
    execute i head s = .next (runOps (program i s.isRunning) (head (accept (encode i) s))) := by
  simp only [execute, h, accept_isRunning]

/-- A command that is not admitted is refused (R110, R140). -/
theorem execute_refused (i : Instr) (head : State → State) (s : State) (h : admission (.ok i) s ≠ .eOk) :
    execute i head s = .next (refuse (admission (.ok i) s) (accept (encode i) s)) := by
  unfold execute
  cases ha : admission (.ok i) s <;> simp_all

/-- Every command goes through the one frame (R110). -/
theorem exec_eq_execute (i : Instr) (s : State) : exec i s = execute i (commandHead i) s := by
  cases i <;> rfl

/-- The register lines of a port operation, field by field. -/
@[simp] theorem applyAfter_nothing (s : State) : applyAfter .nothing s = s := rfl
@[simp] theorem applyAfter_latchDuty (s : State) : applyAfter .latchDuty s = latchDuty s := rfl
@[simp] theorem applyAfter_setRunning (s : State) : applyAfter .setRunning s = { s with isRunning := true } := rfl
@[simp] theorem applyAfter_clearRunning (s : State) : applyAfter .clearRunning s = { s with isRunning := false } := rfl
@[simp] theorem applyAfter_setConfigured (s : State) : applyAfter .setConfigured s = { s with configured := true } := rfl

@[simp] theorem perform_acquire (w : Window) (s : State) : perform (.acquire w) s = portAcquire w s := rfl
@[simp] theorem perform_release (w : Window) (s : State) : perform (.release w) s = portRelease w s := rfl
@[simp] theorem perform_rd (w : Window) (off : Nat) (s : State) : perform (.rd w off) s = portRd w off s := rfl
@[simp] theorem perform_wrField (u : Update) (s : State) :
    perform (.wrField u) s =
      portWr (updateWindow u) (updateOffset u) (mergeField (updateMask u) (updateValue s u) s.tmp) s := rfl
@[simp] theorem perform_wrPeriod (s : State) :
    perform .wrPeriod s = portWr .pwm offPwmPeriod (pack s.periodTicks s.dutyTicks) s := rfl

theorem advance_eq (op : MicroOp) (s : State) : advance op s = applyAfter op.after (countStep (perform op.port s)) := rfl

/-- A port operation that completed changes neither the parameters nor what the outside world will do. -/
theorem advance_outside (op : MicroOp) (s : State) :
    (advance op s).params = s.params ∧ (advance op s).inputs = s.inputs ∧
      (advance op s).restAnswer = s.restAnswer ∧ (advance op s).answers = s.answers := by
  rcases op with ⟨p, a⟩
  cases p <;> cases a <;> simp [advance_eq]

@[simp] theorem performGiven_rd (w : Window) (off : Nat) (v : Word) (fx : List Host.Cell) (s : State) :
    performGiven (.rd w off) v fx s = portRdGiven w off v fx s := rfl

theorem advanceGiven_eq (op : MicroOp) (v : Word) (fx : List Host.Cell) (s : State) :
    advanceGiven op v fx s = applyAfter op.after (countStep (performGiven op.port v fx s)) := rfl

/-- `advance_outside` at a register that is no plain store. -/
theorem advanceGiven_outside (op : MicroOp) (v : Word) (fx : List Host.Cell) (s : State) :
    (advanceGiven op v fx s).params = s.params ∧ (advanceGiven op v fx s).inputs = s.inputs ∧
      (advanceGiven op v fx s).restAnswer = s.restAnswer ∧ (advanceGiven op v fx s).answers = s.answers := by
  rcases op with ⟨p, a⟩
  cases p <;> cases a <;> simp [advanceGiven_eq, performGiven]

end Sys2Proof.Machine
end

