-- ==== Sys2Proof/Laws/Runs.lean ====
section
/-! SUPPORT. Runs through port operations in the terms claims use: all answered, and cut short by a failing `Acquire` or a
wait after a stretch that was answered; what no command and no step touches of the parameters and the inputs. -/

namespace Sys2Proof.Machine

theorem answer_zero (s : State) : s.answer 0 = nextAnswer s := by
  unfold State.answer nextAnswer
  cases s.answers <;> rfl

/-- After one answer the next port operation meets the next one. -/
theorem answer_advance (op : MicroOp) (s : State) (k : Nat) :
    (advance op (dropAnswer s)).answer k = s.answer (k + 1) := by
  obtain ⟨-, -, hr, ha⟩ := advance_outside op (dropAnswer s)
  unfold State.answer
  rw [hr, ha]
  cases h : s.answers <;> simp [h]

theorem answersOk_advance (op : MicroOp) (s : State) (n : Nat) (h : AnswersOk (n + 1) s) :
    AnswersOk n (advance op (dropAnswer s)) := fun k hk => by
  rw [answer_advance]; exact h (k + 1) (by omega)

/-- The state after port operations that were all answered. -/
def advanceAll (ops : List MicroOp) (s : State) : State := ops.foldl (fun s op => advance op (dropAnswer s)) s

@[simp] theorem advanceAll_nil (s : State) : advanceAll [] s = s := rfl
@[simp] theorem advanceAll_cons (op : MicroOp) (ops : List MicroOp) (s : State) :
    advanceAll (op :: ops) s = advanceAll ops (advance op (dropAnswer s)) := rfl

/-- Port operations that are all answered are all done, one after another. -/
theorem runOps_append_ok (xs ys : List MicroOp) (s : State) (h : AnswersOk xs.length s) :
    runOps (xs ++ ys) s = runOps ys (advanceAll xs s) := by
  induction xs generalizing s with
  | nil => rfl
  | cons op xs ih =>
    have h0 : nextAnswer s = .ok := by rw [← answer_zero]; exact h 0 (by simp)
    rw [List.cons_append, runOps_ok _ _ _ (portReply_of_ok _ _ h0), advanceAll_cons]
    exact ih _ (answersOk_advance op s _ h)

/-- A command whose port operations are all answered runs to its end. -/
theorem runOps_of_answersOk (ops : List MicroOp) (s : State) (h : AnswersOk ops.length s) :
    runOps ops s = complete (advanceAll ops s) := by
  have := runOps_append_ok ops [] s h
  rwa [List.append_nil] at this

theorem advanceAll_answer (xs : List MicroOp) (s : State) (k : Nat) :
    (advanceAll xs s).answer k = s.answer (k + xs.length) := by
  induction xs generalizing s with
  | nil => rfl
  | cons op xs ih => rw [advanceAll_cons, ih, answer_advance, List.length_cons, Nat.add_assoc]

/-- An `Acquire` that fails after answered port operations ends the command in the fatal fault. -/
theorem runOps_acquire_fails (xs ys : List MicroOp) (w : Window) (a : After) (s : State) (h : AnswersOk xs.length s)
    (hf : s.answer xs.length = .fail) :
    runOps (xs ++ ⟨.acquire w, a⟩ :: ys) s = fatal w (dropAnswer (advanceAll xs s)) := by
  have hn : nextAnswer (advanceAll xs s) = .fail := by
    rw [← answer_zero, advanceAll_answer, Nat.zero_add, hf]
  rw [runOps_append_ok xs _ s h, runOps_fail _ _ _ (by unfold portReply; rw [hn])]
  rfl

theorem commandHead_outside (i : Instr) (s : State) : SameOutside s (commandHead i s) := by
  cases i <;> exact ⟨rfl, rfl, rfl⟩

/-- A run through port operations leaves the parameters, the inputs and the rest answer alone, however it ends. -/
theorem runOps_outside (ops : List MicroOp) (s : State) : SameOutside s (runOps ops s) := by
  refine runOps_induct (fun _ t => SameOutside s t) (SameOutside s) ?_ ?_ ?_ ?_ ?_ ?_ ops s ⟨rfl, rfl, rfl⟩
  · exact fun t h => h
  · exact fun _ _ t h _ => h
  · exact fun _ _ t h _ => h
  · intro op _ t h _
    obtain ⟨hp, hi, hr, -⟩ := advance_outside op (dropAnswer t)
    exact ⟨hp.trans h.1, hi.trans h.2.1, hr.trans h.2.2⟩
  · intro op _ t cells h _
    obtain ⟨hp, hi, hr, -⟩ := advance_outside op (envWrites cells (dropAnswer t))
    exact ⟨hp.trans h.1, hi.trans h.2.1, hr.trans h.2.2⟩
  · intro op _ t v fx h _
    obtain ⟨hp, hi, hr, -⟩ := advanceGiven_outside op v fx (dropAnswer t)
    exact ⟨hp.trans h.1, hi.trans h.2.1, hr.trans h.2.2⟩

/-- Every command has a next state, and leaves the same alone. -/
theorem exec_outside (i : Instr) (s : State) : ∃ t, exec i s = .next t ∧ SameOutside s t := by
  rw [exec_eq_execute]
  by_cases h : admission (.ok i) s = .eOk
  · obtain ⟨hp, hi, hr⟩ := runOps_outside (program i s.isRunning) (commandHead i (accept (encode i) s))
    obtain ⟨hp', hi', hr'⟩ := commandHead_outside i (accept (encode i) s)
    exact ⟨_, execute_admitted i _ s h, hp.trans hp', hi.trans hi', hr.trans hr'⟩
  · exact ⟨_, execute_refused i _ s h, rfl, rfl, rfl⟩

theorem resume_outside (s t : State) (h : resume s = .next t) : SameOutside s t := by
  unfold resume at h
  split at h
  · cases h
  · split at h <;> cases h
    exact runOps_outside _ s

/-- A busy block with nothing ahead of it, or only a command word that it holds up, goes on. -/
theorem step_resumes (s : State) (hb : s.busy = true) (h : s.inputs = [] ∨ ∃ c rest, s.inputs = .command c :: rest) :
    step s = resume s := by
  rcases h with h | ⟨c, rest, h⟩ <;> simp [step, fetch, h, hb]

/-- A step takes at most the next event from the inputs. -/
theorem step_inputs (s t : State) (h : step s = .next t) : t.inputs = s.inputs ∨ ∃ e, s.inputs = e :: t.inputs := by
  match hi : s.inputs, hb : s.busy with
  | [], false => simp [step, fetch, hi, hb] at h; subst h; exact .inl hi
  | [], true => rw [step_resumes s hb (.inl hi)] at h; exact .inl ((resume_outside s t h).2.1.trans hi)
  | .hardReset :: rest, _ => simp [step, fetch, hi] at h; subst h; exact .inr ⟨_, rfl⟩
  | .envWrite cell :: rest, _ => simp [step, fetch, hi] at h; subst h; exact .inr ⟨_, rfl⟩
  | .command c :: rest, true =>
    rw [step_resumes s hb (.inr ⟨c, rest, hi⟩)] at h; exact .inl ((resume_outside s t h).2.1.trans hi)
  | .command c :: rest, false =>
    match hd : decode c with
    | .error e => simp [step, fetch, hi, hb, hd] at h; subst h; exact .inr ⟨_, rfl⟩
    | .ok i =>
      simp only [step, fetch, hi, hb, hd, Bool.false_eq_true, if_false] at h
      obtain ⟨v, hv, -, hvi, -⟩ := exec_outside i _
      rw [h] at hv
      cases hv
      exact .inr ⟨_, by rw [hvi]⟩

/-- Along a run the inputs still to come are the last ones of those at its start. -/
theorem run_inputs (n : Nat) (s t : State) (h : Sys2Proof.core.run n s = .next t) : t.inputs <:+ s.inputs := by
  induction n generalizing s with
  | zero => cases h; exact List.suffix_refl _
  | succ n ih =>
    cases hs : step s with
    | next u =>
      have hr : Sys2Proof.core.run n u = .next t := by simpa [Host.Core.run, Sys2Proof.core, hs] using h
      refine (ih u hr).trans ?_
      rcases step_inputs s u hs with hi | ⟨e, hi⟩
      · rw [hi]
      · rw [hi]; exact List.suffix_cons _ _
    | fault r => simp [Host.Core.run, Sys2Proof.core, hs] at h
    | refused r => simp [Host.Core.run, Sys2Proof.core, hs] at h

end Sys2Proof.Machine
end

