-- ==== Sys2Proof/Tests/Slice0.lean ====
section
/-! SUPPORT. The model's own tests: words of the encoding, the vectors of 95_test_vectors.md a step at a time, and for every
statement with hypotheses a state and operands that meet them. -/

namespace Sys2Proof.Tests

open Sys2Proof.Machine

/-- The state a step ends in, if it does. -/
def after : Host.Outcome State Fault Refusal → Option State
  | .next s => some s
  | .fault _ => none
  | .refused _ => none

/-- Memory with given words in the four target registers. -/
def words (ctrl period cfg dat : Word) : Memory :=
  writeWord (writeWord (writeWord (writeWord [] 0x01C21400 ctrl) 0x01C21404 period) 0x01C20800 cfg) 0x01C20810 dat

/-- A block right after reset, with given target registers. -/
def fresh (ctrl period cfg dat : Word) : State := { State.reset with mem := words ctrl period cfg dat }

/-- A block configured for 1000 Hz (V-S1), Stopped, with given target registers. -/
def stopped (ctrl period cfg dat : Word) : State :=
  { fresh ctrl period cfg dat with configured := true, frequencyHz := 1000, prescalerCode := 0, periodTicks := 200 }

/-- The same block, Running at 50 percent. -/
def running (ctrl period cfg dat : Word) : State :=
  { stopped ctrl period cfg dat with isRunning := true, dutyPct := 50, dutyTicks := 100 }

/-- A `RUN 50` that waits between the `Rd` and the `Wr` of its first RMW, having read 0 in `PIN_CFG` (V-H1). -/
def midRun : State :=
  { stopped 0 0 0 0 with
    busy := true, curCmd := 0x30000032, ustep := 2, held := some .pin, tmp := 0, dutyPct := 50 }

/-! ### Well-formedness: an ill-formed term for each check -/

theorem test_wellFormed_init_refuses : (Instr.init (2 ^ 28)).wellFormed = false := by decide
theorem test_wellFormed_reset_refuses : (Instr.reset (2 ^ 28)).wellFormed = false := by decide
theorem test_wellFormed_run_refuses : (Instr.run 128).wellFormed = false := by decide
theorem test_wellFormed_setduty_refuses : (Instr.setduty 128).wellFormed = false := by decide

/-! ### Decoding: the words of V-E and 42_commands.md, written out bit by bit from R51 to R55 -/

theorem test_decode_init : decode 0b0001_0000000000000000001111101000 = .ok (.init 1000) := by decide
theorem test_decode_cfgps : decode 0b0010_0000000000000000000000000000 = .ok .cfgps := by decide
theorem test_decode_run : decode 0b0011_000000000000000000000_0110010 = .ok (.run 50) := by decide
theorem test_decode_stop : decode 0b0100_0000000000000000000000000000 = .ok .stop := by decide
theorem test_decode_setduty : decode 0b0101_000000000000000000000_0011001 = .ok (.setduty 25) := by decide
theorem test_decode_reset : decode 0b0110_0000000000000000000110111000 = .ok (.reset 440) := by decide
theorem test_decode_illegal :
    decode 0x20000001 = .error .reservedBits ∧ decode 0x30000080 = .error .reservedBits ∧
      decode 0x48000000 = .error .reservedBits ∧ decode 0 = .error .unusedOpcode ∧
      decode 0x70000000 = .error .unusedOpcode ∧ decode 0xFFFFFFFF = .error .unusedOpcode := by decide
theorem test_encode_init_max : encode (.init 24000000) = 0x116E3600 := by decide
theorem test_commandText : commandText (.setduty 25) = "SETDUTY 25" := by decide

/-- R60, with the words of P1. -/
theorem test_pwmStart : hostRun (pwmStart 1000 50) =
    [.hardReset, .command 0x100003E8, .command 0x50000032, .command 0x30000032] := by decide

theorem test_decodeTableWord : decodeTableWord 32 0x50000064 = some (.setduty 100) := by decide

/-! ### The calculator: V-S1, V-S2, V-S8, V-S21, V-S25, V-D8, V-D17, V-D18 -/

theorem test_select_1000 : select 1000 = ⟨0b0000, 200, false⟩ := by decide
theorem test_select_1001 : select 1001 = ⟨0b1111, 23976, false⟩ := by decide
theorem test_select_440 : select 440 = ⟨0b0010, 227, false⟩ := by decide
theorem test_select_1 : select 1 = ⟨0b1100, 333, false⟩ := by decide
theorem test_select_fallback : select 10000000 = ⟨0b1111, 2, true⟩ := by decide
theorem test_dutyTicks : dutyTicksOf 333 33 = 109 ∧ dutyTicksOf 4545 37 = 1681 := by decide
theorem test_pack : pack 50 25 = 0x00320019 := by decide

/-! ### The commands: one step each, from P1 to P5 -/

/-- P4 step 8. -/
theorem test_init : (after (exec (.init 24000000) (fresh 0x12345678 0x11112222 0 0x20))).map
    (fun t => (t.pwmCtrl, t.periodTicks, t.configured)) = some (0x1234567F, 1, true) := by decide

/-- P4 step 9: a second `INIT`. -/
theorem test_init_twice : (after (exec (.init 1000) (stopped 0 0 0 0))).map (·.err) = some .eState := by decide

/-- R115's worked line, with code `0100`. -/
theorem test_cfgps : (after (exec .cfgps { stopped 0x12345670 0 0 0 with prescalerCode := 0b0100 })).map
    (fun t => (t.pwmCtrl, t.err)) = some (0x12345674, .eOk) := by decide

/-- P4 step 1: before `INIT`. -/
theorem test_cfgps_unconfigured : (after (exec .cfgps State.reset)).map (·.err) = some .eState := by decide

/-- P1 step 3. -/
theorem test_run : (after (exec (.run 50) (stopped 0xA5A5A500 0xDEADBEEF 0x77777777 0xFFFFFFFF))).map
    (fun t => (t.pinCfg, t.pwmCtrl, t.pwmPeriod, t.isRunning)) =
      some (0x77377777, 0xA5A5A570, 0x00C80064, true) := by decide

/-- P5 step 2: the second `Acquire` fails. -/
theorem test_run_fatal : (after (exec (.run 10)
    { stopped 0xF 0 0xFFFFFFFF 0xFFFFFFFF with answers := [.ok, .ok, .ok, .ok, .fail] })).map
    (fun t => (t.pinCfg, t.pwmCtrl, t.dutyPct, t.dutyTicks, t.err)) =
      some (0xFFBFFFFF, 0xF, 10, 0, .eHwAccess) := by decide

/-- P2 step 5. -/
theorem test_stop : (after (exec .stop (running 0xA5A5A570 0x00C80064 0x77377777 0xFFFFFFFF))).map
    (fun t => (t.pinCfg, t.pinDat, t.pwmCtrl, t.pwmPeriod)) =
      some (0x77177777, 0xFFFFFFDF, 0xA5A5A500, 0x00C80064) := by decide

/-- R121: from Stopped the same ten port operations. -/
theorem test_stop_from_stopped : (after (exec .stop (stopped 0x74 0 0x300000 0x20))).map (fun t => t.trace.length) =
    some 11 := by decide

/-- R123's worked line, Stopped. -/
theorem test_setduty : (after (exec (.setduty 25) (stopped 0 0 0 0))).map
    (fun t => (t.dutyTicks, t.trace)) = some (50, [.done .eOk]) := by decide

/-- R123's worked line, Running. -/
theorem test_setduty_running : (after (exec (.setduty 25) (running 0x70 0 0 0))).map (·.pwmPeriod) =
    some 0x00C80032 := by decide

/-- R125's worked line. -/
theorem test_reset : (after (exec (.reset 440) (running 0x70 0 0x300000 0))).map
    (fun t => (t.pwmCtrl, t.pwmPeriod, t.dutyTicks)) = some (0x72, 0x00E30071, 113) := by decide

/-- P3 steps 7 to 9: `RESET` while Stopped recomputes the duty. -/
theorem test_reset_stopped : (after (exec (.reset 1000)
    { stopped 0xF 0 0 0 with periodTicks := 23976, dutyPct := 100, dutyTicks := 23976 })).map
    (fun t => (t.dutyTicks, t.periodTicks)) = some (200, 200) := by decide

/-! ### The step -/

/-- V-E22: a faulted block reports the fault even for an illegal word. -/
theorem test_faulted_outranks_illegal :
    (after (step (State.withFetchWord { State.reset with faulted := true } 32 0))).map (·.err) = some .eFaulted := by decide

/-- V-H1: the other agent's write between the `Rd` and the `Wr` is lost. -/
theorem test_lost_update : (after (step { midRun with mem := words 0 0 7 0 })).map (fun t => (t.pinCfg, t.err)) =
    some (0x00300000, .eOk) := by decide

/-- V-H1 in one step: the write comes with the answer to the `Wr` of the RMW, and is lost. -/
theorem test_lost_update_in_gap :
    (after (exec (.run 50) { stopped 0 0 0 0 with answers := [.ok, .ok, .after [(0x01C20800, 7)]] })).map
      (fun t => (t.pinCfg, t.err)) = some (0x00300000, .eOk) := by decide

/-- R36: a register that is no plain store gives the word it likes, and its read changes memory. -/
theorem test_rd_no_plain_store :
    (after (exec .cfgps { stopped 0x10 0 0 0 with answers := [.ok, .reads 0xA5 [(0x01C21408, 1)]] })).map
      (fun t => (t.pwmCtrl, readByte t.mem 0x01C21408)) = some (0xA0, 1) := by decide

/-- The word the host places is the one the next step runs. -/
theorem test_withFetchWord : (after (step (State.reset.withFetchWord 32 0x100003E8))).map
    (fun t => (t.frequencyHz, t.configured, t.inputs)) = some (1000, true, []) := by decide

/-! ### Witnesses: states and operands that meet each statement's hypotheses -/

theorem witness_DecodeEncode :
    (Instr.init 0).wellFormed = true ∧ (Instr.reset (2 ^ 28 - 1)).wellFormed = true ∧ (Instr.run 127).wellFormed = true :=
  by decide
theorem witness_EncodeDecode : decode 0x1FFFFFFF = .ok (.init 268435455) := by decide
theorem witness_OpcodeMapDecides :
    decode 0x3000007F = .ok (.run 127) ∧ (opcodeRow (.run 0)).spells 0x3000007F = true := by decide
theorem witness_IllegalWords :
    decode 0x0FFFFFFF = .error .unusedOpcode ∧ decode 0x40000001 = .error .reservedBits ∧
      decode 0x5FFFFFFF = .error .reservedBits := by decide
theorem witness_SelectByRange : 1 ≤ 24000000 ∧ 24000000 ≤ 24000000 := by decide
theorem witness_SelectBounds : 1 ≤ 1 ∧ 1 ≤ 24000000 := by decide
theorem witness_SelectSmallestScore :
    (⟨0b0000, 120⟩ : PrescalerRow) ∈ prescalerTable ∧ 200 ≤ quotient 120 1000 ∧
      quotient 120 1000 = quotient 120 1000 := by decide
theorem witness_SelectOrderIrrelevant : prescalerTable.reverse.Perm prescalerTable := List.reverse_perm _
theorem witness_DutyTicksExact :
    1 ≤ (running 0 0 0 0).periodTicks.toNat ∧ (running 0 0 0 0).periodTicks.toNat ≤ 23976 ∧
      (running 0 0 0 0).dutyPct.toNat ≤ 100 := by decide
theorem witness_DutyTicksExact_corners :
    let s := { running 0 0 0 0 with periodTicks := 1, dutyPct := 99 }
    let t := { running 0 0 0 0 with dutyPct := 100 }
    let u := { running 0 0 0 0 with dutyPct := 0 }
    (1 ≤ s.periodTicks.toNat ∧ s.periodTicks.toNat = 1 ∧ s.dutyPct.toNat < 100) ∧ t.dutyPct.toNat = 100 ∧
      u.dutyPct.toNat = 0 := by decide
theorem witness_WordWrite : Memory.wf (words 1 2 3 4) ∧ 3 < 4 ∧ ¬ InWord 4 0 := by decide
theorem witness_MemoryExtensional :
    Memory.wf (words 1 2 3 4) ∧ ∀ a, readByte (words 1 2 3 4) a = readByte (words 1 2 3 4) a :=
  ⟨by decide, fun _ => rfl⟩
theorem witness_RmwLocality : Memory.wf (running 0x70 1 0x300000 0x20).mem := by decide
theorem witness_RmwIdempotentCommutes :
    (0x5 : Word) &&& ~~~0xF = 0 ∧ (0x70 : Word) &&& ~~~0x70 = 0 ∧ (0xF : Word) &&& 0x70 = 0 := by decide
theorem witness_LostUpdate : Memory.wf midRun.mem ∧ ¬ InWord 0x01C20804 (addrPinCfg midRun) := by decide
theorem witness_InitCompletes :
    let s := fresh 0x12345678 0 0 0
    1 ≤ 24000000 ∧ s.configured = false ∧ s.faulted = false ∧ Memory.wf s.mem ∧ AnswersOk 4 s := by decide
theorem witness_CfgpsCompletes :
    let s := running 0x70 0 0 0
    s.configured = true ∧ s.faulted = false ∧ Memory.wf s.mem ∧ AnswersOk 8 s := by decide
theorem witness_RunCompletes :
    let s := stopped 0 0 0x77777777 0
    100 ≤ 100 ∧ s.configured = true ∧ s.faulted = false ∧ Memory.wf s.mem ∧ s.params.Legal ∧ AnswersOk 9 s := by decide
theorem witness_StopCompletes :
    let s := running 0x70 0 0x300000 0x20
    s.configured = true ∧ s.faulted = false ∧ Memory.wf s.mem ∧ s.params.Legal ∧ AnswersOk 10 s := by decide
theorem witness_SetdutyStoppedCompletes :
    let s := stopped 0 0 0 0
    0 ≤ 100 ∧ s.configured = true ∧ s.faulted = false ∧ s.isRunning = false := by decide
theorem witness_SetdutyRunningCompletes :
    let s := running 0x70 0 0x300000 0x20
    100 ≤ 100 ∧ s.configured = true ∧ s.faulted = false ∧ s.isRunning = true ∧ Memory.wf s.mem ∧ s.params.Legal ∧
      AnswersOk 9 s := by decide
theorem witness_ResetStoppedCompletes :
    let s := stopped 0 0 0 0
    1 ≤ 1 ∧ s.configured = true ∧ s.faulted = false ∧ s.isRunning = false ∧ Memory.wf s.mem ∧ AnswersOk 4 s := by decide
theorem witness_ResetRunningCompletes :
    let s := running 0x70 0 0x300000 0x20
    24000000 ≤ 24000000 ∧ s.configured = true ∧ s.faulted = false ∧ s.isRunning = true ∧ Memory.wf s.mem ∧
      s.params.Legal ∧ AnswersOk 13 s := by decide
theorem witness_CfgpsIdempotent :
    let s := running 0x7F 0 0 0
    s.configured = true ∧ s.faulted = false ∧ Memory.wf s.mem ∧ AnswersOk 8 s := by decide
theorem witness_RunIdempotent :
    let s := stopped 0 0 0x77777777 0
    50 ≤ 100 ∧ s.configured = true ∧ s.faulted = false ∧ Memory.wf s.mem ∧ s.params.Legal ∧ AnswersOk 18 s := by decide
theorem witness_RunThenStop :
    let s := stopped 0xA5A5A500 0xDEADBEEF 0x77777777 0xFFFFFFFF
    50 ≤ 100 ∧ s.configured = true ∧ s.faulted = false ∧ Memory.wf s.mem ∧ s.params.Legal ∧ AnswersOk 19 s := by decide
theorem witness_SetdutyThenRunIsRun :
    let s := stopped 0 0 0 0
    50 ≤ 100 ∧ s.configured = true ∧ s.faulted = false ∧ s.isRunning = false ∧ AnswersOk 9 s := by decide
theorem witness_BitsOutsideFieldsKept :
    let s := running 0x70 0 0x300000 0x20
    Memory.wf s.mem ∧ s.params.Legal ∧ PlainStore s ∧ NoTargetWrites s ∧ ¬ InTargets s 5 ∧ ¬ ChangedByOthers s 5 ∧
      ∃ t, exec .stop s = .next t :=
  ⟨by decide, by decide, by intro x hx; simp_all [State.coming, running, stopped, fresh, State.reset], by decide,
    by decide, by simp [ChangedByOthers, State.coming, running, stopped, fresh, State.reset, Answer.others,
      Answer.sideEffects], _, rfl⟩
theorem witness_ControlTransitions_completed :
    ∃ t, exec .stop (running 0 0 0 0) = .next t ∧ t.busy = false ∧ t.err = .eOk := ⟨_, rfl, rfl, rfl⟩
theorem witness_ControlTransitions_faulted :
    ∃ t, exec .stop { running 0 0 0 0 with answers := [.fail] } = .next t ∧ t.busy = false ∧ t.err = .eHwAccess :=
  ⟨_, rfl, rfl, rfl⟩
theorem witness_ControlTransitions_refused :
    ∃ t, exec (.run 101) (running 0 0 0 0) = .next t ∧ t.busy = false ∧ t.err ≠ .eOk ∧ t.err ≠ .eHwAccess :=
  ⟨_, rfl, rfl, by decide, by decide⟩
theorem witness_RefusalChangesOnlyErr :
    let s := { State.reset with inputs := [.command 0x30000065] }
    s.busy = false ∧ s.inputs = .command 0x30000065 :: [] ∧ admission (decode 0x30000065) s ≠ .eOk := by decide
theorem witness_AdmittedEndsOkOrFatal :
    let s := running 0 0 0 0
    Admitted (.reset 440) s ∧ PortAnswers s ∧ AcquireOk s := by decide
theorem witness_PrescalerAcquireFailure :
    let s := { fresh 0 0 0 0 with answers := [.fail] }
    let t := { running 0 0 0 0 with answers := [.fail] }
    (s.configured = false ∧ s.faulted = false ∧ s.answer 0 = .fail) ∧
      t.configured = true ∧ t.faulted = false ∧ t.answer 0 = .fail := by decide
theorem witness_RunAcquireFailure :
    let s := { running 0 0 0 0 with answers := [.fail] }
    let t := { running 0 0 0 0 with answers := [.ok, .ok, .ok, .ok, .fail] }
    (100 ≤ 100 ∧ s.configured = true ∧ s.faulted = false ∧ Memory.wf s.mem ∧ s.answer 0 = .fail ∧ s.isRunning = true) ∧
      t.configured = true ∧ t.faulted = false ∧ Memory.wf t.mem ∧ AnswersOk 4 t ∧ t.answer 4 = .fail ∧
      t.isRunning = true := by decide
theorem witness_StopAcquireFailure :
    let s := { running 0 0 0 0 with answers := [.fail] }
    let t := { running 0 0 0 0 with answers := [.ok, .ok, .ok, .ok, .ok, .ok, .fail] }
    (s.configured = true ∧ s.faulted = false ∧ Memory.wf s.mem ∧ s.answer 0 = .fail) ∧
      t.configured = true ∧ t.faulted = false ∧ Memory.wf t.mem ∧ AnswersOk 6 t ∧ t.answer 6 = .fail := by decide
theorem witness_ResetAcquireFailure :
    let s (n : Nat) := { running 0 0 0 0 with answers := List.replicate n .ok ++ [.fail] }
    ∀ n ∈ [0, 4, 8], (s n).configured = true ∧ (s n).faulted = false ∧ Memory.wf (s n).mem ∧ (s n).params.Legal ∧
      (s n).isRunning = true ∧ AnswersOk n (s n) ∧ (s n).answer n = .fail := by decide
theorem witness_FaultIsSticky :
    let s := { running 0 0 0 0 with faulted := true, inputs := [.command 0] }
    s.faulted = true ∧ s.busy = false ∧ s.inputs = .command 0 :: [] ∧ ∃ t, step s = .next t :=
  ⟨rfl, rfl, rfl, _, rfl⟩
theorem witness_StepRunsDecoded :
    let s := { running 0 0 0 0 with inputs := [.command 0x40000000] }
    s.busy = false ∧ s.inputs = .command 0x40000000 :: [] ∧ decode 0x40000000 = .ok .stop ∧
      Instr.stop.wellFormed = true := by decide
theorem witness_BusyHoldsCommand :
    let s := { midRun with inputs := [.command 0x40000000] }
    s.busy = true ∧ s.inputs = .command 0x40000000 :: [] ∧ ∃ t, step s = .next t := ⟨rfl, rfl, _, rfl⟩
theorem witness_AnyWordIsTaken :
    let s := { State.reset with inputs := [.command 0xFFFFFFFF] }
    s.busy = false ∧ s.inputs = .command 0xFFFFFFFF :: [] ∧ PortAnswers s := by decide
theorem witness_HardwareReset : ({ midRun with inputs := [.hardReset] } : State).inputs = .hardReset :: [] := rfl
theorem witness_EnvironmentWrites :
    let s := { midRun with inputs := [.envWrite (0x01C20800, 7)] }
    s.inputs = .envWrite (0x01C20800, 7) :: [] ∧ Memory.wf s.mem := by decide

/-- The registers of `midRun` are those of R27 but for R97's recompute. -/
theorem midRun_timingOk : TimingOk midRun := ⟨by decide, ⟨120, by decide, by decide⟩, by decide, by decide⟩

theorem midRun_busyOk : BusyOk midRun :=
  ⟨.run 50, by decide, by decide, by decide, by decide, by decide, midRun_timingOk, by decide,
    .inr ⟨⟨50, rfl⟩, by decide⟩⟩

theorem witness_PortNeverAnswersHangs :
    let s := { midRun with restAnswer := .wait }
    s.busy = true ∧ BusyOk s ∧ s.answers = [] ∧ s.restAnswer = .wait ∧ s.inputs = [] :=
  ⟨rfl, ⟨.run 50, by decide, by decide, by decide, by decide, by decide, midRun_timingOk, by decide,
    .inr ⟨⟨50, rfl⟩, by decide⟩⟩, rfl, rfl, rfl⟩

theorem witness_WaitChangesNothing :
    let s := { stopped 0 0 0 0 with answers := [.ok, .ok] ++ [] }
    (Instr.run 50).wellFormed = true ∧ (∀ a ∈ [Answer.ok, .ok], a ≠ .wait) ∧ (∃ t, exec (.run 50) s = .next t) ∧
      ∃ u, exec (.run 50) { s with answers := [.ok, .ok] ++ .wait :: [] } = .next u ∧ u.busy = true ∧
        NoWriteNext u ∧ NoResetNext u := by
  refine ⟨by decide, by decide, ⟨_, rfl⟩, _, rfl, rfl, ?_, ?_⟩
  · intro _ cell rest h; cases h
  · intro _ rest h; cases h

theorem midRun_inv : Inv midRun where
  memory := by decide
  running := by decide
  faulted := by decide
  unfaulted := by decide
  released := by decide
  config := by intro _ h; cases h
  sequencer := fun _ => midRun_busyOk

theorem witness_StepKeepsInvariant : Inv midRun ∧ ∃ t, step midRun = .next t := ⟨midRun_inv, _, rfl⟩
theorem witness_InvariantNeverStops : Inv midRun := midRun_inv

theorem witness_EveryRunKeepsConfig :
    Memory.wf (words 0xF 0 0 0) ∧
      ∃ t, Sys2Proof.core.run 2 (resetIn (words 0xF 0 0 0) presumedParams [] .ok
          [.command 0x100003E8, .command 0x30000032]) = .next t ∧
        t.configured = true ∧ t.busy = false ∧ t.faulted = false := ⟨by decide, _, rfl, rfl, rfl, rfl⟩

theorem witness_InterferenceInEveryGap :
    let gaps : List (List Host.Cell) := [[(1, 1)], [(0x01C21400, 7)], [(0x01C21400, 9)], []]
    let s := { running 0 0 0 0 with answers := gaps.map .after ++ [.wait] }
    Admitted .cfgps s ∧ s.answers = gaps.map .after ++ [.wait] ∧ gaps.length = (program .cfgps s.isRunning).length := by
  decide

theorem witness_StopLosesBothUpdates :
    let xs : List Host.Cell := [(0x01C20800, 7), (0x01C20803, 1)]
    let ys : List Host.Cell := [(0x01C21400, 0xFF)]
    let s := { running 0x70 0 0x300000 0x20 with
      answers := [.ok, .ok, .after xs, .ok, .ok, .ok, .ok, .ok, .after ys, .ok] ++ [] }
    s.configured = true ∧ s.faulted = false ∧ Memory.wf s.mem ∧ s.params.Legal ∧
      (∀ c ∈ xs, InWord c.1 (addrPinCfg s)) ∧ (∀ c ∈ ys, InWord c.1 (addrPwmCtrl s)) ∧
      s.answers = [.ok, .ok, .after xs, .ok, .ok, .ok, .ok, .ok, .after ys, .ok] ++ [] := by decide

theorem witness_ResumedStepKeepsOtherBytes :
    Inv midRun ∧ midRun.params.Legal ∧ midRun.busy = true ∧ NoWriteNext midRun ∧ NoResetNext midRun ∧
      (∃ t, step midRun = .next t) ∧ ¬ InTargets midRun 5 ∧ ¬ ChangedByOthers midRun 5 :=
  ⟨midRun_inv, by decide, rfl, fun _ _ _ h => (nomatch h), fun _ _ h => (nomatch h), ⟨_, rfl⟩, by decide,
    by simp [ChangedByOthers, State.coming, midRun, stopped, fresh, State.reset, Answer.others, Answer.sideEffects]⟩

/-- A `RUN 50` presented to a port that answers late, with another agent's write elsewhere to come. -/
def disturbed : State :=
  { stopped 0 0 0 0 with
    answers := [.ok, .ok, .wait, .after [(5, 6)]], inputs := [.command 0x30000032, .envWrite (5, 7)] }

/-- What is still to come on a run from `disturbed`. -/
theorem disturbed_inputs (n : Nat) (t : State) (h : Sys2Proof.core.run n disturbed = .next t) :
    t.inputs = [.command 0x30000032, .envWrite (5, 7)] ∨ t.inputs = [.envWrite (5, 7)] ∨ t.inputs = [] := by
  have := run_inputs n disturbed t h
  simpa [disturbed, List.suffix_cons_iff] using this

theorem witness_PremisesMakeCommandAtomic :
    (Instr.run 50).wellFormed = true ∧ Memory.wf disturbed.mem ∧ disturbed.busy = false ∧
      disturbed.inputs = .command (encode (.run 50)) :: [.envWrite (5, 7)] ∧ Admitted (.run 50) disturbed ∧
      NoInterference disturbed ∧ PlainStore disturbed ∧ PortAnswersInTheEnd disturbed ∧ NoResetWhileBusy disturbed ∧
      AcquireOk disturbed := by
  refine ⟨by decide, by decide, rfl, by decide, by decide, ⟨by decide, ?_⟩, ?_, by decide, ?_, by decide⟩
  · intro n t h _ cell rest hr
    rcases disturbed_inputs n t h with hi | hi | hi <;> rw [hr] at hi <;> cases hi
    decide
  · intro x hx v fx hv
    simp [State.coming, disturbed, stopped, fresh, State.reset, hv] at hx
  · intro n t h _ rest hr
    rcases disturbed_inputs n t h with hi | hi | hi <;> rw [hr] at hi <;> cases hi

theorem witness_ParametersFixedTraceGrows : ∃ t, step midRun = .next t := ⟨_, rfl⟩

end Sys2Proof.Tests
end

namespace Sys2Proof

/-! ### The command word: decoding and encoding undo each other -/

/-- The opcode of a command (R55). -/
def opcodeNumber : Instr → Nat
  | .init _ => 1
  | .cfgps => 2
  | .run _ => 3
  | .stop => 4
  | .setduty _ => 5
  | .reset _ => 6

/-- The operand field of a command; shape Z has all of it zero (R52 to R54). -/
def operandNumber : Instr → Nat
  | .init f => f
  | .cfgps => 0
  | .run p => p
  | .stop => 0
  | .setduty p => p
  | .reset f => f

theorem operandNumber_lt {i : Instr} (h : i.wellFormed = true) : operandNumber i < 2 ^ 28 := by
  cases i <;> simp [Instr.wellFormed, operandNumber] at h ⊢ <;> omega

/-- The number of a command's word: opcode above, operand field below (R51). -/
theorem encode_toNat {i : Instr} (h : i.wellFormed = true) :
    (encode i).toNat = opcodeNumber i * 2 ^ 28 + operandNumber i := by
  cases i <;> simp only [encode, commandWord_toNat, opcodeNumber, operandNumber] <;>
    simp [Instr.wellFormed] at h ⊢ <;> omega

/-- Decoding undoes encoding on well-formed commands (R51 to R55). -/
theorem decode_encode {i : Instr} (h : i.wellFormed = true) : decode (encode i) = .ok i := by
  have hlt := operandNumber_lt h
  have hop : (encode i).toNat / 2 ^ 28 = opcodeNumber i := by rw [encode_toNat h]; omega
  have harg : (encode i).toNat % 2 ^ 28 = operandNumber i := by rw [encode_toNat h]; omega
  have hpct : (encode i).toNat % 2 ^ 7 = operandNumber i % 2 ^ 7 := by rw [encode_toNat h]; omega
  rw [decode_nat, hop, harg, hpct]
  cases i <;> simp [Instr.wellFormed, opcodeNumber, operandNumber] at h ⊢ <;> simp [h, Nat.mod_eq_of_lt h]

/-- What a word decodes to is well formed and spells the word again (R51 to R55). -/
theorem wellFormed_and_encode_of_decode {c : Word} {i : Instr} (h : decode c = .ok i) :
    i.wellFormed = true ∧ encode i = c := by
  rw [decode_nat] at h
  have hw : i.wellFormed = true := by
    split_ifs at h <;> cases h <;> simp [Instr.wellFormed] <;> omega
  have hn : c.toNat = opcodeNumber i * 2 ^ 28 + operandNumber i := by
    split_ifs at h <;> cases h <;> simp only [opcodeNumber, operandNumber] <;> omega
  exact ⟨hw, BitVec.eq_of_toNat_eq (by rw [encode_toNat hw, hn])⟩

/-- Two well-formed commands with the same word are the same. -/
theorem encode_inj {i j : Instr} (hi : i.wellFormed = true) (hj : j.wellFormed = true) (h : encode i = encode j) :
    i = j := by
  have := decode_encode hi
  rw [h, decode_encode hj] at this
  exact (Except.ok.inj this).symm

end Sys2Proof

namespace Sys2Proof.Machine

/-! ### The calculator: what `Select` answers -/

/-- The running best of the selection loop after the rows `rows` (R73): no row was eligible, or it is the quotient of one of
them and the smallest that is eligible. -/
def BestAmong (f : Nat) (rows : List PrescalerRow) : Option Candidate → Prop
  | none => ∀ r ∈ rows, quotient r.divider f < minTicks
  | some b => (∃ r ∈ rows, b.code = r.code ∧ b.quotient = quotient r.divider f) ∧
      b.score = b.quotient - minTicks ∧ minTicks ≤ b.quotient ∧
      ∀ r ∈ rows, minTicks ≤ quotient r.divider f → b.quotient ≤ quotient r.divider f

theorem bestAmong_selectTurn {f : Nat} {rows : List PrescalerRow} {best : Option Candidate} (r : PrescalerRow)
    (h : BestAmong f rows best) : BestAmong f (rows ++ [r]) (selectTurn f best r) := by
  have hlast : r ∈ rows ++ [r] := by simp
  cases best with
  | none =>
    simp only [selectTurn]
    split_ifs with hr
    · refine ⟨⟨r, hlast, rfl, rfl⟩, rfl, hr, fun r' hr' he => ?_⟩
      rcases List.mem_append.1 hr' with hr' | hr'
      · exact absurd he (Nat.not_le.2 (h r' hr'))
      · rw [List.mem_singleton.1 hr']
    · exact List.forall_mem_append.2 ⟨h, List.forall_mem_singleton.2 (Nat.not_le.1 hr)⟩
  | some b =>
    obtain ⟨⟨r₀, hr₀, hcode, hq⟩, hscore, hmin, hbest⟩ := h
    have keep (hle : minTicks ≤ quotient r.divider f → b.quotient ≤ quotient r.divider f) :
        BestAmong f (rows ++ [r]) (some b) :=
      ⟨⟨r₀, List.mem_append_left _ hr₀, hcode, hq⟩, hscore, hmin,
        List.forall_mem_append.2 ⟨hbest, List.forall_mem_singleton.2 hle⟩⟩
    simp only [selectTurn]
    split_ifs with hr hlt
    · refine ⟨⟨r, hlast, rfl, rfl⟩, rfl, hr,
        List.forall_mem_append.2 ⟨fun r' hr' he => ?_, List.forall_mem_singleton.2 fun _ => le_rfl⟩⟩
      have := hbest r' hr' he
      simp only; omega
    · exact keep fun _ => by omega
    · exact keep fun hr' => absurd hr' hr

theorem bestAmong_foldl (f : Nat) (rows : List PrescalerRow) :
    BestAmong f rows (rows.foldl (selectTurn f) none) := by
  induction rows using List.reverseRecOn with
  | nil => simp [BestAmong]
  | append_singleton rows r ih => rw [List.foldl_concat]; exact bestAmong_selectTurn r ih

theorem selectFrom_of_none {order : List PrescalerRow} {f : Nat} (h : order.foldl (selectTurn f) none = none) :
    selectFrom order f = ⟨fallbackCode, quotient 1 f, true⟩ := by rw [selectFrom, h]

theorem selectFrom_of_some {order : List PrescalerRow} {f : Nat} {b : Candidate}
    (h : order.foldl (selectTurn f) none = some b) : selectFrom order f = ⟨b.code, b.quotient, false⟩ := by
  rw [selectFrom, h]

/-- Every row of the table is the divider of its code (R70). -/
theorem divider_of_mem_prescalerTable : ∀ r ∈ prescalerTable, divider r.code = some r.divider := by decide

/-- A higher frequency has no larger quotient. -/
theorem quotient_anti (d : Nat) {f g : Nat} (hf : 1 ≤ f) (h : f ≤ g) : quotient d g ≤ quotient d f :=
  Nat.div_le_div_left h hf

/-- Above 1000 Hz no divider gives more than 23976 ticks. -/
theorem quotient_le_of_gt_1000 (d : Nat) {f : Nat} (h : 1000 < f) : quotient d f ≤ 23976 :=
  calc baseClockHz / d / f ≤ baseClockHz / f := Nat.div_le_div_right (Nat.div_le_self _ _)
    _ ≤ baseClockHz / 1001 := Nat.div_le_div_left h (by decide)
    _ = 23976 := by decide

/-- A row that is eligible, with at most 23976 ticks, at both ends of a range of frequencies is so inside it. -/
theorem eligible_between {r : PrescalerRow} {lo hi f : Nat} (hr : r ∈ prescalerTable) (h1 : 1 ≤ lo) (hlo : lo ≤ f)
    (hhi : f ≤ hi) (hmin : minTicks ≤ quotient r.divider hi) (hmax : quotient r.divider lo ≤ 23976) :
    ∃ r ∈ prescalerTable, minTicks ≤ quotient r.divider f ∧ quotient r.divider f ≤ 23976 :=
  ⟨r, hr, hmin.trans (quotient_anti _ (h1.trans hlo) hhi), (quotient_anti _ h1 hlo).trans hmax⟩

/-- Up to 1000 Hz some row of the table gives a period from 200 to 23976 ticks. -/
theorem exists_eligible_row {f : Nat} (h1 : 1 ≤ f) (h2 : f ≤ 1000) :
    ∃ r ∈ prescalerTable, minTicks ≤ quotient r.divider f ∧ quotient r.divider f ≤ 23976 := by
  rcases (by omega : f ≤ 5 ∨ 6 ≤ f ∧ f ≤ 10 ∨ 11 ≤ f) with h | ⟨h, h'⟩ | h
  · exact eligible_between (r := ⟨0b1001, 24000⟩) (by decide) le_rfl h1 h (by decide) (by decide)
  · exact eligible_between (r := ⟨0b1000, 12000⟩) (by decide) (by decide) h h' (by decide) (by decide)
  · exact eligible_between (r := ⟨0b0000, 120⟩) (by decide) (by decide) h h2 (by decide) (by decide)

/-- What `Select` answers for a legal frequency: a key of the table and the period of its divider, from 1 to 23976 (R71,
R75 (b), R76). -/
theorem select_spec {f : Nat} (h1 : 1 ≤ f) (h2 : f ≤ maxFreq) :
    (∃ d, divider (select f).code = some d ∧ (select f).period = quotient d f) ∧
      1 ≤ (select f).period ∧ (select f).period ≤ 23976 := by
  have hbest := bestAmong_foldl f prescalerTable
  cases hb : prescalerTable.foldl (selectTurn f) none with
  | none =>
    rw [hb] at hbest
    rw [select, selectFrom_of_none hb]
    have hf : 1000 < f := by
      by_contra hle
      obtain ⟨r, hr, hmin, -⟩ := exists_eligible_row h1 (Nat.not_lt.1 hle)
      exact absurd hmin (Nat.not_le.2 (hbest r hr))
    exact ⟨⟨1, (by decide : divider fallbackCode = some 1), rfl⟩,
      (by decide : 1 ≤ quotient 1 maxFreq).trans (quotient_anti 1 h1 h2), quotient_le_of_gt_1000 1 hf⟩
  | some b =>
    rw [hb] at hbest
    rw [select, selectFrom_of_some hb]
    obtain ⟨⟨r, hr, hcode, hq⟩, -, hmin, hle⟩ := hbest
    refine ⟨⟨r.divider, hcode ▸ divider_of_mem_prescalerTable r hr, hq⟩, (by decide : 1 ≤ minTicks).trans hmin, ?_⟩
    by_cases hf : f ≤ 1000
    · obtain ⟨r', hr', hmin', hmax⟩ := exists_eligible_row h1 hf
      exact (hle r' hr' hmin').trans hmax
    · exact hq ▸ quotient_le_of_gt_1000 _ (Nat.not_le.1 hf)

/-! ### What one completed port operation changes, and the cases of a step -/

/-- `u` is `s` after a port operation that completed, before the register lines below it: the answer is used up, `held` and
`ustep` have moved on, and only memory, `tmp` and the trace are the port's and the other agents' to change. -/
def PortDone (op : MicroOp) (s u : State) : Prop :=
  ∃ (m : Memory) (v : Word) (events : List TraceEvent), (Memory.wf s.mem → Memory.wf m) ∧
    u = { s with mem := m, tmp := v, trace := s.trace ++ events, answers := s.answers.tail,
                 held := heldAfter s.held op, ustep := s.ustep + 1 }

theorem portDone_perform (op : MicroOp) (s : State) : PortDone op s (countStep (perform op.port (dropAnswer s))) := by
  rcases op with ⟨p, a⟩
  cases p with
  | acquire w => exact ⟨s.mem, s.tmp, [.acquire w true], id, rfl⟩
  | release w => exact ⟨s.mem, s.tmp, [.release w], id, rfl⟩
  | rd w off => exact ⟨s.mem, _, [_], id, rfl⟩
  | wrField u => exact ⟨_, s.tmp, [_], writeWord_wf _ _ _, rfl⟩
  | wrPeriod => exact ⟨_, s.tmp, [_], writeWord_wf _ _ _, rfl⟩

theorem portDone_envWrites (op : MicroOp) (cells : List Host.Cell) (s : State) :
    PortDone op s (countStep (perform op.port (envWrites cells (dropAnswer s)))) := by
  obtain ⟨m, v, events, hm, hu⟩ := portDone_perform op (envWrites cells s)
  exact ⟨m, v, events, fun hs => hm (writeBytes_wf s.mem cells hs), hu⟩

theorem portDone_performGiven (op : MicroOp) (v : Word) (fx : List Host.Cell) (s : State) :
    PortDone op s (countStep (performGiven op.port v fx (dropAnswer s))) := by
  rcases op with ⟨p, a⟩
  cases p with
  | rd w off => exact ⟨_, v, [_], writeBytes_wf _ _, rfl⟩
  | acquire w => exact portDone_perform ⟨_, a⟩ s
  | release w => exact portDone_perform ⟨_, a⟩ s
  | wrField u => exact portDone_perform ⟨_, a⟩ s
  | wrPeriod => exact portDone_perform ⟨_, a⟩ s

/-- `runOps_induct` with the three ways a port operation completes taken as one. -/
theorem runOps_induct_portDone (P : List MicroOp → State → Prop) (Q : State → Prop)
    (done : ∀ s, P [] s → Q (complete s))
    (wait : ∀ op ops s, P (op :: ops) s → Q (dropAnswer s))
    (fail : ∀ op ops s w, P (op :: ops) s → Q (fatal w (dropAnswer s)))
    (next : ∀ op ops s u, P (op :: ops) s → PortDone op s u → P ops (applyAfter op.after u))
    (ops : List MicroOp) (s : State) (h : P ops s) : Q (runOps ops s) :=
  runOps_induct P Q done (fun op ops s hs _ => wait op ops s hs) (fun op ops s hs _ => fail op ops s _ hs)
    (fun op ops s hs _ => next op ops s _ hs (portDone_perform op s))
    (fun op ops s cells hs _ => next op ops s _ hs (portDone_envWrites op cells s))
    (fun op ops s v fx hs _ => next op ops s _ hs (portDone_performGiven op v fx s)) ops s h

/-- What a step can be. -/
inductive StepCase (s : State) : State → Prop
  /-- Nothing is presented to an idle block: it waits (R160). -/
  | waits (idle : s.busy = false) (hin : s.inputs = []) : StepCase s s
  /-- Hardware reset (R160, R161). -/
  | hardReset (rest : List Input) (hin : s.inputs = .hardReset :: rest) :
      StepCase s (hardReset { s with inputs := rest })
  /-- Another agent's write (R41). -/
  | envWrite (cell : Host.Cell) (rest : List Input) (hin : s.inputs = .envWrite cell :: rest) :
      StepCase s (envWrite cell { s with inputs := rest })
  /-- A presented word is refused (R140). -/
  | refused (c : Word) (rest : List Input) (idle : s.busy = false) (hin : s.inputs = .command c :: rest)
      (hadm : admission (decode c) s ≠ .eOk) :
      StepCase s (refuse (admission (decode c) s) (accept c { s with inputs := rest }))
  /-- A presented word spells an admitted command, which runs (R110). -/
  | runs (i : Instr) (rest : List Input) (idle : s.busy = false) (hin : s.inputs = .command (encode i) :: rest)
      (hwf : i.wellFormed = true) (hadm : Admitted i s) :
      StepCase s (runOps (program i s.isRunning) (commandHead i (accept (encode i) { s with inputs := rest })))
  /-- A busy block goes on with its command; a word presented meanwhile stays presented (R58, R112, R147). -/
  | resumes (i : Instr) (busy : s.busy = true) (hcmd : s.curCmd = encode i) (hwf : i.wellFormed = true)
      (hin : s.inputs = [] ∨ ∃ c rest, s.inputs = .command c :: rest) :
      StepCase s (runOps ((program i s.isRunning).drop s.ustep) s)

/-- A busy block goes on only with a command that `cur_cmd` spells, where it waited (R112, R147). -/
theorem resume_next {s t : State} (h : resume s = .next t) :
    ∃ i, s.curCmd = encode i ∧ i.wellFormed = true ∧ t = runOps ((program i s.isRunning).drop s.ustep) s := by
  unfold resume at h
  split at h
  · cases h
  case h_2 i hd =>
    obtain ⟨hwf, hc⟩ := wellFormed_and_encode_of_decode hd
    split at h <;> cases h
    exact ⟨i, hc.symm, hwf, rfl⟩

/-- A presented word that spells a command is that command (R58, R110). -/
theorem step_command_ok {s : State} {c : Word} {i : Instr} {rest : List Input} (idle : s.busy = false)
    (hin : s.inputs = .command c :: rest) (hd : decode c = .ok i) : step s = exec i { s with inputs := rest } := by
  have hf : fetch s = .run i { s with inputs := rest } := by
    rw [fetch, hin]; dsimp only; rw [if_neg (by simp [idle]), hd]
  rw [step, hf]

/-- A presented word that spells no command is refused (R56, R58). -/
theorem step_command_error {s : State} {c : Word} {e : DecodeError} {rest : List Input} (idle : s.busy = false)
    (hin : s.inputs = .command c :: rest) (hd : decode c = .error e) :
    step s = .next (refuseIllegal c { s with inputs := rest }) := by
  have hf : fetch s = .settled (refuseIllegal c { s with inputs := rest }) := by
    rw [fetch, hin]; dsimp only; rw [if_neg (by simp [idle]), hd]
  rw [step, hf]

/-- A word presented to an idle block that `Admit` finds something against is refused (R56, R110, R140). -/
theorem step_command_refused {s : State} {c : Word} {rest : List Input} (idle : s.busy = false)
    (hin : s.inputs = .command c :: rest) (hadm : admission (decode c) s ≠ .eOk) :
    step s = .next (refuse (admission (decode c) s) (accept c { s with inputs := rest })) := by
  cases hd : decode c with
  | error e => rw [step_command_error idle hin hd, refuseIllegal, hd]; rfl
  | ok i =>
    obtain ⟨-, hc⟩ := wellFormed_and_encode_of_decode hd
    rw [hd] at hadm
    rw [step_command_ok idle hin hd, exec_eq_execute, execute_refused i _ { s with inputs := rest } hadm, hc]; rfl

/-- An admitted command presented to an idle block runs (R58, R110). -/
theorem step_command_admitted {s : State} {i : Instr} {rest : List Input} (idle : s.busy = false)
    (hin : s.inputs = .command (encode i) :: rest) (hwf : i.wellFormed = true) (hadm : Admitted i s) :
    step s = .next (runOps (program i s.isRunning) (commandHead i (accept (encode i) { s with inputs := rest }))) := by
  rw [step_command_ok idle hin (decode_encode hwf), exec_eq_execute]
  exact execute_admitted i _ { s with inputs := rest } hadm

/-- Only a word that spells a command is admitted (R143). -/
theorem decode_ok_of_admission {c : Word} {s : State} (h : admission (decode c) s = .eOk) :
    ∃ i, decode c = .ok i ∧ Admitted i s := by
  cases hd : decode c with
  | error e => rw [hd, admission] at h; split at h <;> cases h
  | ok i => rw [hd] at h; exact ⟨i, rfl, h⟩

/-- What a step can do, said once. -/
theorem step_cases {s t : State} (h : step s = .next t) : StepCase s t := by
  match hi : s.inputs, hb : s.busy with
  | [], false => simp [step, fetch, hi, hb] at h; exact h ▸ .waits hb hi
  | .hardReset :: rest, _ => simp [step, fetch, hi] at h; exact h ▸ .hardReset rest hi
  | .envWrite cell :: rest, _ => simp [step, fetch, hi] at h; exact h ▸ .envWrite cell rest hi
  | .command c :: rest, false =>
    by_cases hadm : admission (decode c) s = .eOk
    · obtain ⟨i, hd, hi'⟩ := decode_ok_of_admission hadm
      obtain ⟨hwf, rfl⟩ := wellFormed_and_encode_of_decode hd
      rw [step_command_admitted hb hi hwf hi'] at h
      cases h
      exact .runs i rest hb hi hwf hi'
    · rw [step_command_refused hb hi hadm] at h
      cases h
      exact .refused c rest hb hi hadm
  | [], true =>
    rw [step_resumes s hb (.inl hi)] at h
    obtain ⟨i, hcmd, hwf, rfl⟩ := resume_next h
    exact .resumes i hb hcmd hwf (.inl hi)
  | .command c :: rest, true =>
    rw [step_resumes s hb (.inr ⟨c, rest, hi⟩)] at h
    obtain ⟨i, hcmd, hwf, rfl⟩ := resume_next h
    exact .resumes i hb hcmd hwf (.inr ⟨c, rest, hi⟩)

/-! ### What the register lines leave alone -/

@[simp] theorem applyAfter_mem (a : After) (s : State) : (applyAfter a s).mem = s.mem := by cases a <;> rfl
@[simp] theorem applyAfter_busy (a : After) (s : State) : (applyAfter a s).busy = s.busy := by cases a <;> rfl
@[simp] theorem applyAfter_faulted (a : After) (s : State) : (applyAfter a s).faulted = s.faulted := by cases a <;> rfl
@[simp] theorem applyAfter_err (a : After) (s : State) : (applyAfter a s).err = s.err := by cases a <;> rfl
@[simp] theorem applyAfter_curCmd (a : After) (s : State) : (applyAfter a s).curCmd = s.curCmd := by cases a <;> rfl
@[simp] theorem applyAfter_ustep (a : After) (s : State) : (applyAfter a s).ustep = s.ustep := by cases a <;> rfl
@[simp] theorem applyAfter_held (a : After) (s : State) : (applyAfter a s).held = s.held := by cases a <;> rfl
@[simp] theorem applyAfter_dutyPct (a : After) (s : State) : (applyAfter a s).dutyPct = s.dutyPct := by cases a <;> rfl
@[simp] theorem applyAfter_trace (a : After) (s : State) : (applyAfter a s).trace = s.trace := by cases a <;> rfl

@[simp] theorem commandHead_mem (i : Instr) (s : State) : (commandHead i s).mem = s.mem := by cases i <;> rfl
@[simp] theorem commandHead_busy (i : Instr) (s : State) : (commandHead i s).busy = s.busy := by cases i <;> rfl
@[simp] theorem commandHead_faulted (i : Instr) (s : State) : (commandHead i s).faulted = s.faulted := by cases i <;> rfl
@[simp] theorem commandHead_configured (i : Instr) (s : State) : (commandHead i s).configured = s.configured := by
  cases i <;> rfl
@[simp] theorem commandHead_err (i : Instr) (s : State) : (commandHead i s).err = s.err := by cases i <;> rfl
@[simp] theorem commandHead_curCmd (i : Instr) (s : State) : (commandHead i s).curCmd = s.curCmd := by cases i <;> rfl
@[simp] theorem commandHead_ustep (i : Instr) (s : State) : (commandHead i s).ustep = s.ustep := by cases i <;> rfl
@[simp] theorem commandHead_held (i : Instr) (s : State) : (commandHead i s).held = s.held := by cases i <;> rfl
@[simp] theorem commandHead_trace (i : Instr) (s : State) : (commandHead i s).trace = s.trace := by cases i <;> rfl

/-- The register lines at the head never set `is_running`. -/
theorem isRunning_of_commandHead (i : Instr) (s : State) (h : (commandHead i s).isRunning = true) :
    s.isRunning = true := by
  cases i with
  | init f => cases h
  | cfgps | run p | stop | setduty p | reset f => exact h

@[simp] theorem stateAdmits_commandHead (i j : Instr) (s : State) :
    stateAdmits i (commandHead j s) = stateAdmits i s := by
  cases i <;> simp [stateAdmits]

@[simp] theorem stateAdmits_accept (i : Instr) (c : Word) (s : State) : stateAdmits i (accept c s) = stateAdmits i s := by
  cases i <;> rfl

/-- The register lines at the head choose no other list of port operations: only `INIT` touches `is_running`, and its list
does not depend on it. -/
theorem program_commandHead (i : Instr) (s : State) : program i (commandHead i s).isRunning = program i s.isRunning := by
  cases i <;> rfl

/-! ### Facts about the commands' lists of port operations -/

/-- A line that changes a flag stands only below the last port operation (R112). -/
theorem after_of_mem_dropLast (i : Instr) (r : Bool) :
    ∀ op ∈ (program i r).dropLast, op.after = .nothing ∨ op.after = .latchDuty := by
  cases i <;> cases r <;> simp only [program] <;> decide

theorem after_of_not_last {i : Instr} {r : Bool} {done ops : List MicroOp} {op : MicroOp}
    (h : program i r = done ++ op :: ops) (hne : ops ≠ []) : op.after = .nothing ∨ op.after = .latchDuty := by
  refine after_of_mem_dropLast i r op ?_
  rw [h, List.dropLast_append_of_ne_nil (by simp), List.dropLast_cons_of_ne_nil hne]
  simp

/-- `INIT` never sets `is_running` (R113). -/
theorem after_ne_setRunning_of_init (f : Nat) (r : Bool) :
    ∀ op ∈ program (.init f) r, op.after ≠ .setRunning := by
  simp only [program]; decide

/-- Every command releases what it acquires (R101). -/
theorem foldl_heldAfter_program (i : Instr) (r : Bool) : (program i r).foldl heldAfter none = none := by
  cases i <;> cases r <;> rfl

/-- The recompute of `RUN` follows its seventh port operation (R97). -/
theorem after_of_run_seventh {p : Nat} {r : Bool} {done ops : List MicroOp} {op : MicroOp}
    (h : program (.run p) r = done ++ op :: ops) (h6 : done.length = 6) : op.after = .latchDuty := by
  have hget : (program (.run p) r)[6]? = some op := by rw [h, ← h6]; simp
  have hop : (program (.run p) r)[6]? = some ⟨.wrField .enable, .latchDuty⟩ := rfl
  obtain rfl := Option.some.inj (hop.symm.trans hget)
  rfl

/-! ### Admission -/

theorem admitted_iff (i : Instr) (s : State) :
    Admitted i s ↔ s.faulted = false ∧ stateAdmits i s = true ∧ operandLegal i = true := by
  simp only [Admitted, admission]
  split_ifs <;> simp_all

theorem admission_of_faulted (c : Except DecodeError Instr) {s : State} (h : s.faulted = true) :
    admission c s = .eFaulted := by
  unfold admission; rw [if_pos h]

theorem admission_of_unfaulted (c : Except DecodeError Instr) {s : State} (h : s.faulted = false) :
    admission c s ≠ .eHwAccess ∧ admission c s ≠ .eFaulted := by
  unfold admission; rw [if_neg (by simp [h])]
  cases c with
  | error e => simp
  | ok i => dsimp only; split_ifs <;> simp

/-! ### R27 under the register lines -/

/-- The duty in ticks is exact in its register and not above the period (R77). -/
theorem dutyOk_latchDuty {s : State} (h : s.dutyPct.toNat ≤ maxPct) : DutyOk (latchDuty s) := by
  have hp := s.periodTicks.isLt
  have hle : dutyTicksOf s.periodTicks.toNat s.dutyPct.toNat ≤ s.periodTicks.toNat :=
    Nat.div_le_of_le_mul (by rw [Nat.mul_comm]; exact Nat.mul_le_mul_right _ h)
  have heq : (latchDuty s).dutyTicks.toNat = dutyTicksOf s.periodTicks.toNat s.dutyPct.toNat := by
    rw [latchDuty_dutyTicks, BitVec.toNat_ofNat, Nat.mod_eq_of_lt (hle.trans_lt hp)]
  exact ⟨heq, heq ▸ hle⟩

theorem freqLegal_iff (f : Nat) : freqLegal f = true ↔ 1 ≤ f ∧ f ≤ maxFreq := by simp [freqLegal]

/-- What `Select` answers for a legal frequency fits the timing registers (R27, R75, R76). -/
theorem timingOk_loadSelection {f : Nat} (h : freqLegal f = true) (s : State) : TimingOk (loadSelection f s) := by
  obtain ⟨h1, h2⟩ := (freqLegal_iff f).1 h
  obtain ⟨⟨d, hd, hper⟩, hlo, hhi⟩ := select_spec h1 h2
  have hf : (loadSelection f s).frequencyHz.toNat = f := by
    rw [loadSelection_frequencyHz, BitVec.toNat_ofNat]
    exact Nat.mod_eq_of_lt (h2.trans_lt (by decide))
  have hp : (loadSelection f s).periodTicks.toNat = (select f).period := by
    rw [loadSelection_periodTicks, BitVec.toNat_ofNat]
    exact Nat.mod_eq_of_lt (hhi.trans_lt (by decide))
  rw [TimingOk, hf, hp]
  exact ⟨⟨h1, h2⟩, ⟨d, hd, hper⟩, hlo, hhi⟩

theorem timingOk_applyAfter (a : After) {s : State} (h : TimingOk s) : TimingOk (applyAfter a s) := by
  cases a <;> exact h

theorem dutyOk_applyAfter (a : After) {s : State} (hp : s.dutyPct.toNat ≤ maxPct) (h : DutyOk s) :
    DutyOk (applyAfter a s) := by
  cases a with
  | latchDuty => exact dutyOk_latchDuty hp
  | nothing | setRunning | clearRunning | setConfigured => exact h

/-- The register lines at the head of an admitted command leave R27 in place, but for the duty of a `RUN` (R113 to R126). -/
theorem commandHead_config {i : Instr} {s : State} (hop : operandLegal i = true)
    (hadm : stateAdmits i s = true) (hs : s.configured = true → ConfigOk s) :
    TimingOk (commandHead i s) ∧ (commandHead i s).dutyPct.toNat ≤ maxPct ∧
      (DutyOk (commandHead i s) ∨ ∃ p, i = .run p) := by
  have hpct {p : Nat} (hp : pctLegal p = true) : (BitVec.ofNat 7 p).toNat ≤ maxPct := by
    have hp : p ≤ maxPct := by simpa [pctLegal] using hp
    rwa [BitVec.toNat_ofNat, Nat.mod_eq_of_lt (hp.trans_lt (by decide))]
  cases i with
  | init f => exact ⟨timingOk_loadSelection hop s, Nat.zero_le _, .inl (by simp [DutyOk, dutyTicksOf, commandHead])⟩
  | cfgps =>
    obtain ⟨ht, hd, hp⟩ := hs hadm
    exact ⟨ht, hp, .inl hd⟩
  | run p =>
    obtain ⟨ht, -, -⟩ := hs hadm
    exact ⟨ht, hpct hop, .inr ⟨p, rfl⟩⟩
  | stop =>
    obtain ⟨ht, hd, hp⟩ := hs hadm
    exact ⟨ht, hp, .inl hd⟩
  | setduty p =>
    obtain ⟨ht, -, -⟩ := hs hadm
    exact ⟨ht, hpct hop, .inl (dutyOk_latchDuty (hpct hop))⟩
  | reset f =>
    obtain ⟨-, -, hp⟩ := hs hadm
    exact ⟨timingOk_loadSelection hop s, hp, .inl (dutyOk_latchDuty hp)⟩

/-! ### A command in progress -/

/-- A command `i` in progress: the port operations `done` are behind it, `todo` still to do. It is what `Inv` says of a busy
block, joined by what stays true below the last port operation, where the flags may already be those of the next control
state (R128). -/
structure Underway (i : Instr) (done todo : List MicroOp) (s : State) : Prop where
  memory : Memory.wf s.mem
  running : s.isRunning = true → s.configured = true
  busy : s.busy = true
  unfaulted : s.faulted = false
  clean : s.err ≠ .eHwAccess ∧ s.err ≠ .eFaulted
  wellFormed : i.wellFormed = true
  command : s.curCmd = encode i
  listed : ∃ r, program i r = done ++ todo
  admitted : todo ≠ [] → Admitted i s ∧ program i s.isRunning = done ++ todo
  count : s.ustep = done.length
  held : s.held = done.foldl heldAfter none
  timing : TimingOk s
  percent : s.dutyPct.toNat ≤ maxPct
  duty : DutyOk s ∨ (∃ p, i = .run p) ∧ done.length < 7

/-- A line below the last port operation sets `is_running` only at a configured block. -/
theorem configured_of_setRunning {i : Instr} {r : Bool} {done todo : List MicroOp} {op : MicroOp} {s : State}
    (hprog : program i r = done ++ op :: todo) (ha : op.after = .setRunning) (hs : stateAdmits i s = true) :
    s.configured = true := by
  cases i with
  | init f => exact absurd ha (after_ne_setRunning_of_init f r op (by rw [hprog]; simp))
  | cfgps | run p | stop | setduty p | reset f => exact hs

/-- A port operation that completed, with the register lines below it, keeps the command in progress. -/
theorem Underway.next {i : Instr} {done todo : List MicroOp} {op : MicroOp} {s u : State}
    (h : Underway i done (op :: todo) s) (hu : PortDone op s u) :
    Underway i (done ++ [op]) todo (applyAfter op.after u) := by
  obtain ⟨m, v, events, hm, rfl⟩ := hu
  obtain ⟨hadm, hprog⟩ := h.admitted (by simp)
  obtain ⟨-, hstate, -⟩ := (admitted_iff i s).1 hadm
  constructor
  case memory => simpa using hm h.memory
  case running =>
    cases ha : op.after with
    | setRunning => exact fun _ => configured_of_setRunning hprog ha hstate
    | clearRunning => intro hr; cases hr
    | setConfigured => exact fun _ => rfl
    | nothing | latchDuty => exact h.running
  case busy => simpa using h.busy
  case unfaulted => simpa using h.unfaulted
  case clean => simpa using h.clean
  case wellFormed => exact h.wellFormed
  case command => simpa using h.command
  case listed => exact ⟨s.isRunning, by simp [hprog]⟩
  case admitted =>
    intro hne
    rcases after_of_not_last hprog hne with ha | ha <;> rw [ha] <;> exact ⟨hadm, by simpa using hprog⟩
  case count => simp [h.count]
  case held => simp [h.held]
  case timing => exact timingOk_applyAfter _ h.timing
  case percent => simpa using h.percent
  case duty =>
    rcases h.duty with hd | ⟨⟨p, rfl⟩, h7⟩
    · exact .inl (dutyOk_applyAfter _ h.percent hd)
    · rcases (by omega : done.length < 6 ∨ done.length = 6) with h6 | h6
      · exact .inr ⟨⟨p, rfl⟩, by simp; omega⟩
      · rw [after_of_run_seventh hprog h6]
        exact .inl (dutyOk_latchDuty h.percent)

/-- A command whose port operations are all done ends in a state that meets the invariant. -/
theorem Underway.complete_inv {i : Instr} {done : List MicroOp} {s : State} (h : Underway i done [] s) :
    Inv (complete s) := by
  obtain ⟨r, hprog⟩ := h.listed
  rw [List.append_nil] at hprog
  have hduty : DutyOk s := by
    rcases h.duty with hd | ⟨⟨p, rfl⟩, h7⟩
    · exact hd
    · rw [← hprog] at h7; exact absurd h7 (by simp [program, seqRun, rmw])
  exact
    { memory := h.memory
      running := h.running
      faulted := fun hf => absurd hf (by simp [h.unfaulted])
      unfaulted := fun _ => by simp
      released := fun _ => by rw [complete_held, h.held, ← hprog, foldl_heldAfter_program]
      config := fun _ _ _ => ⟨h.timing, hduty, h.percent⟩
      sequencer := fun hb => by simp at hb }

/-- A command that waits for the port meets the invariant. -/
theorem Underway.wait_inv {i : Instr} {done todo : List MicroOp} {op : MicroOp} {s : State}
    (h : Underway i done (op :: todo) s) : Inv (dropAnswer s) := by
  obtain ⟨hadm, hprog⟩ := h.admitted (by simp)
  have hseq : BusyOk (dropAnswer s) := by
    refine ⟨i, h.wellFormed, h.command, hadm, ?_, ?_, h.timing, h.percent, ?_⟩
    · simp [hprog, h.count]
    · simp [hprog, h.count, h.held]
    · exact h.duty.imp id fun ⟨hrun, h7⟩ => ⟨hrun, by simpa [h.count] using h7⟩
  exact
    { memory := h.memory
      running := h.running
      faulted := fun hf => absurd hf (by simp [h.unfaulted])
      unfaulted := fun _ => h.clean
      released := fun hb => absurd hb (by simp [h.busy])
      config := fun _ hb => absurd hb (by simp [h.busy])
      sequencer := fun _ => hseq }

/-- A command cut short by a failing `Acquire` ends in a state that meets the invariant. -/
theorem Underway.fatal_inv {i : Instr} {done todo : List MicroOp} {s : State} (w : Window)
    (h : Underway i done todo s) : Inv (fatal w (dropAnswer s)) where
  memory := h.memory
  running := h.running
  faulted := fun _ => ⟨rfl, .inl rfl⟩
  unfaulted := fun hf => by simp at hf
  released := fun _ => rfl
  config := fun _ _ hf => by simp at hf
  sequencer := fun hb => by simp at hb

/-- However a command in progress leaves its port operations, it ends in a state that meets the invariant. -/
theorem Underway.runOps_inv {i : Instr} {done todo : List MicroOp} {s : State} (h : Underway i done todo s) :
    Inv (runOps todo s) :=
  runOps_induct_portDone (fun todo s => ∃ done, Underway i done todo s) Inv
    (fun _ ⟨_, h⟩ => h.complete_inv)
    (fun _ _ _ ⟨_, h⟩ => h.wait_inv)
    (fun _ _ _ w ⟨_, h⟩ => h.fatal_inv w)
    (fun _ _ _ _ ⟨_, h⟩ hu => ⟨_, h.next hu⟩)
    todo s ⟨done, h⟩

/-- An admitted command begins in progress. -/
theorem underway_of_admitted {i : Instr} {s : State} (hinv : Inv s) (idle : s.busy = false)
    (hwf : i.wellFormed = true) (hadm : Admitted i s) :
    Underway i [] (program i s.isRunning) (commandHead i (accept (encode i) s)) := by
  obtain ⟨hfault, hstate, hop⟩ := (admitted_iff i s).1 hadm
  obtain ⟨htiming, hpct, hduty⟩ := commandHead_config (s := accept (encode i) s) hop
    hstate fun hc => hinv.config hc idle hfault
  exact
    { memory := by simpa using hinv.memory
      running := fun hr => by simpa using hinv.running (isRunning_of_commandHead i (accept _ s) hr)
      busy := by simp
      unfaulted := by simpa using hfault
      clean := by simpa using hinv.unfaulted hfault
      wellFormed := hwf
      command := by simp
      listed := ⟨_, rfl⟩
      admitted := fun _ =>
        ⟨(admitted_iff _ _).2 ⟨by simpa using hfault, by simpa using hstate, hop⟩, program_commandHead i _⟩
      count := by simp
      held := by simpa using hinv.released idle
      timing := htiming
      percent := hpct
      duty := hduty.imp id fun hrun => ⟨hrun, by simp⟩ }

/-- A busy block that meets the invariant has a command in progress. -/
theorem underway_of_busy {i : Instr} {s : State} (hinv : Inv s) (hb : s.busy = true) (hwf : i.wellFormed = true)
    (hcmd : s.curCmd = encode i) :
    Underway i ((program i s.isRunning).take s.ustep) ((program i s.isRunning).drop s.ustep) s := by
  obtain ⟨j, hj, hcj, hadm, hlt, hheld, htiming, hpct, hduty⟩ := hinv.sequencer hb
  obtain rfl := encode_inj hwf hj (hcmd ▸ hcj)
  obtain ⟨hfault, -, -⟩ := (admitted_iff i s).1 hadm
  have hlen : ((program i s.isRunning).take s.ustep).length = s.ustep := List.length_take_of_le hlt.le
  have hprog := (List.take_append_drop s.ustep (program i s.isRunning)).symm
  exact
    { memory := hinv.memory, running := hinv.running, busy := hb, unfaulted := hfault, clean := hinv.unfaulted hfault,
      wellFormed := hwf, command := hcmd, listed := ⟨_, hprog⟩, admitted := fun _ => ⟨hadm, hprog⟩, count := hlen.symm,
      held := hheld, timing := htiming, percent := hpct,
      duty := hduty.imp id fun ⟨hrun, h7⟩ => ⟨hrun, by rwa [hlen]⟩ }

/-! ### Every step keeps the invariant -/

/-- Hardware reset in any surroundings meets the invariant (R28). -/
theorem resetIn_inv (m : Memory) (p : Params) (answers : List Answer) (rest : Answer) (inputs : List Input)
    (hm : Memory.wf m) : Inv (resetIn m p answers rest inputs) where
  memory := hm
  running := fun h => nomatch h
  faulted := fun h => nomatch h
  unfaulted := fun _ => ⟨nofun, nofun⟩
  released := fun _ => rfl
  config := fun h => nomatch h
  sequencer := fun h => nomatch h

/-- Settles O52: `State.reset` is `resetIn` with nothing in memory and nothing presented. -/
theorem resetMeetsInvariant : Obligations.ResetMeetsInvariant :=
  resetIn_inv [] presumedParams [] .ok [] (by decide)

/-- Hardware reset ends in a state that meets the invariant, whatever the block was doing (R160, R161): but for the
trace, of which the invariant says nothing, it is `resetIn` in the surroundings of `s`. -/
theorem hardReset_inv {s : State} (hm : Memory.wf s.mem) : Inv (hardReset s) :=
  { resetIn_inv s.mem s.params s.answers s.restAnswer s.inputs hm with }

/-- The invariant says nothing of the inputs to come. -/
theorem Inv.withInputs {s : State} (h : Inv s) (rest : List Input) : Inv { s with inputs := rest } :=
  { h with }

/-- Another agent's write keeps the invariant (R41). -/
theorem envWrite_inv (cell : Host.Cell) {s : State} (h : Inv s) : Inv (envWrite cell s) :=
  { h with memory := writeByte_wf _ _ _ h.memory }

/-- A refused word keeps the invariant: `E_FAULTED` is the answer of a faulted block and of no other (R140, R143). -/
theorem refused_inv (c : Word) {s : State} (h : Inv s) (idle : s.busy = false) :
    Inv (refuse (admission (decode c) s) (accept c s)) where
  memory := h.memory
  running := h.running
  faulted := fun hf => ⟨rfl, .inr (admission_of_faulted (decode c) hf)⟩
  unfaulted := fun hf => admission_of_unfaulted (decode c) hf
  released := fun _ => h.released idle
  config := fun hc _ => h.config hc idle
  sequencer := fun hb => by simp at hb

/-- Settles O53, by the cases of a step; a command that runs or goes on is `Underway` until it ends or waits. -/
theorem stepKeepsInvariant : Obligations.StepKeepsInvariant := by
  intro s t hinv hstep
  cases step_cases hstep with
  | waits => exact hinv
  | hardReset rest => exact hardReset_inv (hinv.withInputs rest).memory
  | envWrite cell rest => exact envWrite_inv cell (hinv.withInputs rest)
  | refused c rest idle => exact refused_inv c (hinv.withInputs rest) idle
  | runs i rest idle _ hwf hadm =>
    exact (underway_of_admitted (hinv.withInputs rest) idle hwf hadm).runOps_inv
  | resumes i busy hcmd hwf => exact (underway_of_busy hinv busy hwf hcmd).runOps_inv

/-- What every step keeps holds along every run. -/
theorem run_keeps {I : State → Prop} (hI : ∀ s t, I s → step s = .next t → I t) (n : Nat) {s t : State}
    (h : I s) (hrun : Sys2Proof.core.run n s = .next t) : I t := by
  induction n generalizing s with
  | zero => cases hrun; exact h
  | succ n ih =>
    cases hs : step s with
    | next u => exact ih (hI s u h hs) (by simpa [Host.Core.run, Sys2Proof.core, hs] using hrun)
    | fault r => simp [Host.Core.run, Sys2Proof.core, hs] at hrun
    | refused r => simp [Host.Core.run, Sys2Proof.core, hs] at hrun

/-- Settles O55: the invariant holds after hardware reset and every step keeps it. -/
theorem everyRunKeepsConfig : Obligations.EveryRunKeepsConfig := by
  intro m p answers rest inputs n t hm hrun hconf idle hfault
  have hinv : Inv t := run_keeps stepKeepsInvariant n (resetIn_inv m p answers rest inputs hm) hrun
  obtain ⟨⟨⟨hflo, hfhi⟩, ⟨d, hd, hper⟩, hplo, hphi⟩, ⟨hduty, hle⟩, hpct⟩ := hinv.config hconf idle hfault
  exact ⟨⟨d, hd, hper⟩, hplo, hphi, hduty, hle, hpct, hflo, hfhi⟩

/-! ### The sticky fault -/

/-- A run through port operations clears no fault. -/
theorem runOps_faulted (ops : List MicroOp) {s : State} (h : s.faulted = true) : (runOps ops s).faulted = true := by
  refine runOps_induct_portDone (fun _ s => s.faulted = true) (·.faulted = true) ?done ?wait ?fail ?next ops s h
  case done => exact fun _ h => h
  case wait => exact fun _ _ _ h => h
  case fail => exact fun _ _ _ _ _ => rfl
  case next =>
    rintro op _ s _ h ⟨m, v, events, -, rfl⟩
    simpa using h

/-- Settles O42: every step but a hardware reset keeps `faulted`, and a faulted block admits no word. -/
theorem faultIsSticky : Obligations.FaultIsSticky := by
  refine ⟨fun s t hf hstep => ?_, fun c rest s hf idle hin => ?_⟩
  · cases step_cases hstep with
    | hardReset rest hin => exact .inr ⟨rest, hin⟩
    | waits => exact .inl hf
    | envWrite cell rest => exact .inl hf
    | refused c rest => exact .inl hf
    | runs i rest _ _ _ hadm =>
      obtain ⟨hf', -, -⟩ := (admitted_iff i s).1 hadm
      rw [hf] at hf'; cases hf'
    | resumes i => exact .inl (runOps_faulted _ hf)
  · have hadm := admission_of_faulted (decode c) hf
    exact ⟨_, step_command_refused idle hin (by rw [hadm]; decide), hf, hadm, rfl⟩

/-! ### Parameters and trace -/

/-- A run through port operations only adds to the trace. -/
theorem runOps_trace (ops : List MicroOp) (s : State) : s.trace <+: (runOps ops s).trace := by
  refine runOps_induct_portDone (fun _ t => s.trace <+: t.trace) (s.trace <+: ·.trace) ?done ?wait ?fail ?next ops s
    (List.prefix_refl _)
  case done => exact fun _ h => h.trans (List.prefix_append _ _)
  case wait => exact fun _ _ _ h => h
  case fail => exact fun _ _ t w h => h.trans (by simp)
  case next =>
    rintro op _ t _ h ⟨m, v, events, -, rfl⟩
    simpa using h.trans (List.prefix_append _ _)

/-- Settles O56, by the cases of a step. -/
theorem parametersFixedTraceGrows : Obligations.ParametersFixedTraceGrows := by
  intro s t hstep
  cases step_cases hstep with
  | waits | hardReset rest | envWrite cell rest => exact ⟨rfl, List.prefix_refl _⟩
  | refused c rest => exact ⟨rfl, List.prefix_append _ _⟩
  | runs i rest =>
    have hhead := commandHead_outside i (accept (encode i) { s with inputs := rest })
    have hrun := runOps_outside (program i s.isRunning) (commandHead i (accept (encode i) { s with inputs := rest }))
    have htrace := runOps_trace (program i s.isRunning) (commandHead i (accept (encode i) { s with inputs := rest }))
    exact ⟨hrun.1.trans hhead.1, by simpa using htrace⟩
  | resumes i => exact ⟨(runOps_outside _ s).1, runOps_trace _ s⟩

/-! ### Outputs and reset values -/

theorem errBits_le (e : ErrCode) : (errBits e).toNat ≤ 5 := by cases e <;> decide

/-- Settles O50: each output is its register by definition. -/
theorem statusOutputs : Obligations.StatusOutputs :=
  ⟨fun s => ⟨rfl, rfl, rfl, rfl, rfl, rfl, rfl, rfl, rfl, rfl, errBits_le s.err⟩, rfl⟩

/-- Settles O51, by evaluation of the one state and its step. -/
theorem resetValues : Obligations.ResetValues :=
  ⟨rfl, rfl, rfl, rfl, rfl, rfl, rfl, rfl, rfl, rfl, rfl, rfl⟩

end Sys2Proof.Machine

namespace Sys2Proof.Machine

/-! ### A written word, and another agent's byte -/

/-- Settles O13: each clause is what a byte or a word read returns after a word write. -/
theorem wordWrite : Obligations.WordWrite := by
  intro m a v h
  refine ⟨writeWord_wf m a v h, readWord_writeWord_same m a v h, fun k hk => ?_,
    fun x hx => readByte_writeWord_outside m a v h x hx⟩
  rw [readByte_writeWord m a v h, if_pos (by omega), Nat.add_sub_cancel_left, wordByte]

/-- The value an update writes comes from registers and parameters that no `Rd` and no other agent's write changes. -/
theorem updateValue_envWrite_portRd (u : Update) (cell : Host.Cell) (w : Window) (off : Nat) (s : State) :
    updateValue (envWrite cell (portRd w off s)) u = updateValue s u := by
  cases u <;> rfl

/-- The memory an update leaves when another agent writes a byte between its `Rd` and its `Wr`: that byte, and over it the
word made from the old one (R91, R166). -/
theorem mem_update_with_write_between (u : Update) (cell : Host.Cell) (s : State) :
    (perform (.wrField u) (envWrite cell (perform (.rd (updateWindow u) (updateOffset u)) s))).mem =
      writeWord (writeByte s.mem cell.1 cell.2) (portAddr s.params (updateWindow u) (updateOffset u))
        (mergeField (updateMask u) (updateValue s u)
          (readWord s.mem (portAddr s.params (updateWindow u) (updateOffset u)))) := by
  simp [updateValue_envWrite_portRd]

/-- Settles O18: the word written back is made from the word read before the other agent's write. -/
theorem lostUpdate : Obligations.LostUpdate := by
  intro u cell s h a t
  have hw := writeByte_wf s.mem cell.1 cell.2 h
  have ht : t.mem = _ := mem_update_with_write_between u cell s
  rw [ht]
  refine ⟨readWord_writeWord_same _ _ _ hw, fun hout => ?_⟩
  rw [readByte_writeWord_outside _ _ _ hw _ hout, readByte_writeByte _ _ _ h, if_pos rfl]

/-- Another agent's write is taken at once, busy or idle (R41). -/
theorem step_envWrite {s : State} {cell : Host.Cell} {rest : List Input} (hin : s.inputs = .envWrite cell :: rest) :
    step s = .next (envWrite cell { s with inputs := rest }) := by
  have hf : fetch s = .settled (envWrite cell { s with inputs := rest }) := by rw [fetch, hin]
  rw [step, hf]

/-- Settles O47: the step is `envWrite`, one byte written. -/
theorem environmentWrites : Obligations.EnvironmentWrites := by
  intro cell rest s hin h
  refine ⟨_, step_envWrite hin, ?_, fun a ha => ?_, rfl⟩
  · rw [envWrite_mem, readByte_writeByte _ _ _ h, if_pos rfl]
  · rw [envWrite_mem, readByte_writeByte _ _ _ h, if_neg ha]

/-! ### The port protocol -/

/-- A list that keeps the protocol ends with no group open, so another that starts so may follow it (R32). -/
theorem protocolOk_append {h : Option Window} {xs ys : List MicroOp} (hx : protocolOk h xs = true)
    (hy : protocolOk none ys = true) : protocolOk h (xs ++ ys) = true := by
  induction xs generalizing h with
  | nil =>
    obtain rfl : h = none := by simpa [protocolOk] using hx
    exact hy
  | cons op xs ih =>
    rw [protocolOk, Bool.and_eq_true] at hx
    rw [List.cons_append, protocolOk, Bool.and_eq_true]
    exact ⟨hx.1, ih hx.2⟩

theorem protocolOk_seqPrescaler (a : After) : protocolOk none (seqPrescaler a) = true := rfl

theorem protocolOk_seqRun : protocolOk none seqRun = true := rfl

theorem protocolOk_seqStop : protocolOk none seqStop = true := rfl

theorem protocolOk_reapply (r : Bool) : protocolOk none (reapply r) = true := by
  cases r with
  | false => rfl
  | true => exact protocolOk_seqRun

/-- Settles O20: the three sequences keep the protocol, and a command's list is one of them or two in a row. -/
theorem portProtocol : Obligations.PortProtocol := by
  intro i r
  cases i with
  | init f => exact protocolOk_seqPrescaler .setConfigured
  | cfgps => exact protocolOk_seqPrescaler .nothing
  | run p => exact protocolOk_seqRun
  | stop => exact protocolOk_seqStop
  | setduty p => exact protocolOk_reapply r
  | reset f => exact protocolOk_append (protocolOk_seqPrescaler .nothing) (protocolOk_reapply r)

/-! ### Other agents' writes in every gap -/

/-- A port operation does not look at the answers still to come. -/
theorem advance_withAnswers (op : MicroOp) (s : State) (xs : List Answer) :
    advance op { s with answers := xs } = { advance op s with answers := xs } := by
  rcases op with ⟨p, a⟩
  cases p with
  | wrField u => cases u <;> cases a <;> rfl
  | acquire w | release w | rd w off | wrPeriod => cases a <;> rfl

@[simp] theorem commandHead_answers (i : Instr) (s : State) : (commandHead i s).answers = s.answers := by cases i <;> rfl

theorem commandHead_withAnswers (i : Instr) (s : State) (xs : List Answer) :
    commandHead i { s with answers := xs } = { commandHead i s with answers := xs } := by
  cases i <;> rfl

/-- With writes brought to every gap, a run through port operations completes as the interleaving of the two (R41 (a)). -/
theorem runOps_eq_interleave (ops : List MicroOp) (gaps : List (List Host.Cell)) (more : List Answer) (s : State)
    (ha : s.answers = gaps.map .after ++ more) (hlen : gaps.length = ops.length) :
    runOps ops s = complete (interleave ops gaps { s with answers := more }) := by
  induction ops generalizing gaps s with
  | nil =>
    obtain rfl := List.length_eq_zero_iff.1 hlen
    obtain rfl : s.answers = more := ha
    rfl
  | cons op ops ih =>
    cases gaps with
    | nil => cases hlen
    | cons gap gaps =>
      have hn : nextAnswer s = .after gap := by rw [nextAnswer, ha]; rfl
      have htail : (advance op (envWrites gap (dropAnswer s))).answers = gaps.map .after ++ more := by
        obtain ⟨-, -, -, h⟩ := advance_outside op (envWrites gap (dropAnswer s))
        rw [h, envWrites_answers, dropAnswer_answers, ha]; rfl
      rw [runOps_after op ops s gap (portReply_of_after _ _ _ hn), ih gaps _ htail (Nat.succ.inj hlen),
        ← advance_withAnswers]
      rfl

/-- Settles O57: admission and the register lines at the head meet no answer, the port operations one each. -/
theorem interferenceInEveryGap : Obligations.InterferenceInEveryGap := by
  intro i s gaps more hadm ha hlen
  have hhead : (commandHead i (accept (encode i) s)).answers = gaps.map .after ++ more := by simpa using ha
  rw [exec_eq_execute, execute_admitted i _ s hadm, runOps_eq_interleave _ gaps more _ hhead hlen,
    ← commandHead_withAnswers]
  rfl

/-! ### The bytes outside the target registers -/

/-- The memory after a port operation: the old one, or the old one with one target register written (R33, R37). -/
theorem perform_mem_cases (op : PortOp) (s : State) :
    (perform op s).mem = s.mem ∨
      ∃ w v, (∀ a, InWord a w → InTargets s a) ∧ (perform op s).mem = writeWord s.mem w v := by
  cases op with
  | acquire w | release w | rd w off => exact .inl rfl
  | wrPeriod => exact .inr ⟨_, _, fun a ha => .inr (.inl ha), rfl⟩
  | wrField u =>
    refine .inr ⟨_, _, fun a ha => ?_, rfl⟩
    cases u with
    | prescal | enable | disable => exact .inl ha
    | pinPwm | pinGpio => exact .inr (.inr (.inl ha))
    | pinLow => exact .inr (.inr (.inr ha))

/-- `t` comes after `s` with the byte at `a` as it was, and with what decides whether `a` may change: the parameters, which
place the target registers, and no answers to come but those of `s`. -/
structure ByteKept (a : Nat) (s t : State) : Prop where
  memory : Memory.wf t.mem
  params : t.params = s.params
  coming : ∀ x ∈ t.coming, x ∈ s.coming
  byte : readByte t.mem a = readByte s.mem a

theorem ByteKept.refl (a : Nat) {s : State} (h : Memory.wf s.mem) : ByteKept a s s := ⟨h, rfl, fun _ hx => hx, rfl⟩

theorem ByteKept.trans {a : Nat} {s t u : State} (hst : ByteKept a s t) (htu : ByteKept a t u) : ByteKept a s u :=
  ⟨htu.memory, htu.params.trans hst.params, fun x hx => hst.coming x (htu.coming x hx), htu.byte.trans hst.byte⟩

theorem ByteKept.not_inTargets {a : Nat} {s t : State} (h : ByteKept a s t) (ha : ¬ InTargets s a) :
    ¬ InTargets t a := by
  simpa only [InTargets, addrPwmCtrl, addrPwmPeriod, addrPinCfg, addrPinDat, h.params] using ha

theorem ByteKept.not_changedByOthers {a : Nat} {s t : State} (h : ByteKept a s t) (ha : ¬ ChangedByOthers s a) :
    ¬ ChangedByOthers t a :=
  fun ⟨x, hx, c⟩ => ha ⟨x, h.coming x hx, c⟩

theorem nextAnswer_mem_coming (s : State) : nextAnswer s ∈ s.coming := by
  unfold nextAnswer
  cases h : s.answers <;> simp [h]

/-- Where no answer to come changes the byte at `a`, the next one does not. -/
theorem ne_of_nextAnswer {a : Nat} {s : State} (ha : ¬ ChangedByOthers s a) :
    ∀ c ∈ (nextAnswer s).others ++ (nextAnswer s).sideEffects, c.1 ≠ a :=
  fun c hc he => ha ⟨_, nextAnswer_mem_coming s, c, hc, he⟩

theorem byteKept_dropAnswer (a : Nat) {s : State} (h : Memory.wf s.mem) : ByteKept a s (dropAnswer s) :=
  ⟨h, rfl, fun _ hx => (List.mem_cons.1 hx).elim (· ▸ List.mem_cons_self)
    fun hx => List.mem_cons_of_mem _ (List.mem_of_mem_tail hx), rfl⟩

theorem byteKept_envWrites {a : Nat} {s : State} {cells : List Host.Cell} (h : Memory.wf s.mem)
    (hc : ∀ c ∈ cells, c.1 ≠ a) : ByteKept a s (envWrites cells s) :=
  ⟨writeBytes_wf _ _ h, rfl, fun _ hx => hx, readByte_writeBytes_outside _ _ h a hc⟩

theorem byteKept_advance {a : Nat} {s : State} (op : MicroOp) (h : Memory.wf s.mem) (ha : ¬ InTargets s a) :
    ByteKept a s (advance op s) := by
  obtain ⟨hp, -, hr, hans⟩ := advance_outside op s
  have hm : (advance op s).mem = (perform op.port s).mem := by simp [advance_eq]
  have hcoming : ∀ x ∈ (advance op s).coming, x ∈ s.coming := by simp [hr, hans]
  rcases perform_mem_cases op.port s with hs | ⟨w, v, hw, hs⟩
  · exact ⟨by rwa [hm, hs], hp, hcoming, by rw [hm, hs]⟩
  · refine ⟨?_, hp, hcoming, ?_⟩
    · rw [hm, hs]; exact writeWord_wf _ _ _ h
    · rw [hm, hs, readByte_writeWord_outside _ _ _ h _ fun hin => ha (hw a hin)]

/-- A read with side effects, the only port operation that an answer `reads` reaches (R26, R36). -/
theorem byteKept_advanceGiven {a : Nat} {s : State} {op : MicroOp} {v : Word} {fx : List Host.Cell}
    (h : Memory.wf s.mem) (hrd : ∃ w off, op.port = .rd w off) (hc : ∀ c ∈ fx, c.1 ≠ a) :
    ByteKept a s (advanceGiven op v fx s) := by
  obtain ⟨hp, -, hr, hans⟩ := advanceGiven_outside op v fx s
  obtain ⟨w, off, hop⟩ := hrd
  have hm : (advanceGiven op v fx s).mem = writeBytes s.mem fx := by simp [advanceGiven_eq, hop]
  refine ⟨?_, hp, by simp [hr, hans], ?_⟩
  · rw [hm]; exact writeBytes_wf _ _ h
  · rw [hm, readByte_writeBytes_outside _ _ h a hc]

/-- A run through any port operations, however it ends, leaves a byte outside the target registers alone that no answer to
come changes. -/
theorem byteKept_runOps {a : Nat} {s : State} (ops : List MicroOp) (h : Memory.wf s.mem) (ha : ¬ InTargets s a)
    (ho : ¬ ChangedByOthers s a) : ByteKept a s (runOps ops s) := by
  refine runOps_induct (fun _ t => ByteKept a s t) (ByteKept a s) ?done ?wait ?fail ?next ?after ?reads ops s (.refl a h)
  case done => exact fun t ht => ⟨ht.memory, ht.params, ht.coming, ht.byte⟩
  case wait => exact fun _ _ t ht _ => ht.trans (byteKept_dropAnswer a ht.memory)
  case fail =>
    intro op _ t ht _
    obtain ⟨hm, hp, hc, hb⟩ := ht.trans (byteKept_dropAnswer a ht.memory)
    exact ⟨hm, hp, hc, hb⟩
  case next =>
    intro op _ t ht _
    have hd := ht.trans (byteKept_dropAnswer a ht.memory)
    exact hd.trans (byteKept_advance op hd.memory (hd.not_inTargets ha))
  case after =>
    intro op _ t cells ht hreply
    have hcells : ∀ c ∈ cells, c.1 ≠ a := by
      simpa [portReply_after _ _ _ hreply, Answer.others, Answer.sideEffects] using
        ne_of_nextAnswer (ht.not_changedByOthers ho)
    have hd := ht.trans (byteKept_dropAnswer a ht.memory)
    have he := hd.trans (byteKept_envWrites hd.memory hcells)
    exact he.trans (byteKept_advance op he.memory (he.not_inTargets ha))
  case reads =>
    intro op _ t v fx ht hreply
    obtain ⟨hnext, hrd⟩ := portReply_reads _ _ _ _ hreply
    have hfx : ∀ c ∈ fx, c.1 ≠ a := by
      simpa [hnext, Answer.others, Answer.sideEffects] using ne_of_nextAnswer (ht.not_changedByOthers ho)
    have hd := ht.trans (byteKept_dropAnswer a ht.memory)
    exact hd.trans (byteKept_advanceGiven hd.memory hrd hfx)

/-- Settles O59: a waiting block with neither a write nor a reset ahead of it goes on with its port operations. -/
theorem resumedStepKeepsOtherBytes : Obligations.ResumedStepKeepsOtherBytes := by
  intro s t hinv _ hbusy hwrite hreset hstep a ha ho
  cases step_cases hstep with
  | waits idle | refused _ _ idle | runs _ _ idle => exact nomatch hbusy.symm.trans idle
  | hardReset rest hin => exact absurd hin (hreset hbusy rest)
  | envWrite cell rest hin => exact absurd hin (hwrite hbusy cell rest)
  | resumes i => exact (byteKept_runOps _ hinv.memory ha ho).byte

end Sys2Proof.Machine

namespace Sys2Proof

/-! ### The command word: round trips, the opcode map, the illegal words -/

/-- Settles O1: `encode` writes the operand and the opcode where `decode` reads them. -/
theorem decodeEncode : Obligations.DecodeEncode := fun _ h => decode_encode h

/-- Settles O2: the number of a legal word is that of the word `encode` writes. -/
theorem encodeDecode : Obligations.EncodeDecode := fun _ _ h => wellFormed_and_encode_of_decode h

/-- Settles O5: the worked words are those `encode` writes for the commands they stand for. -/
theorem workedWordsDecode : Obligations.WorkedWordsDecode :=
  ⟨decode_encode (i := .init 1000) rfl, decode_encode (i := .cfgps) rfl, decode_encode (i := .run 50) rfl,
    decode_encode (i := .stop) rfl, decode_encode (i := .setduty 25) rfl, decode_encode (i := .reset 440) rfl⟩

/-- A word with the opcode and the operand field of a well-formed command spells it (R51 to R55). -/
theorem decode_of_toNat {c : Word} {i : Instr} (hwf : i.wellFormed = true)
    (hc : c.toNat = opcodeNumber i * 2 ^ 28 + operandNumber i) : decode c = .ok i := by
  have hword : encode i = c := BitVec.eq_of_toNat_eq (by rw [encode_toNat hwf, hc])
  rw [← hword, decode_encode hwf]

/-- The word of a well-formed command matches the command's own row (R55). -/
theorem spells_encode {i : Instr} (hwf : i.wellFormed = true) : (opcodeRow i).spells (encode i) = true := by
  cases i with
  | init f => exact Laws.EncodesOwnRow.init f hwf
  | cfgps => exact Laws.EncodesOwnRow.cfgps hwf
  | run p => exact Laws.EncodesOwnRow.run p hwf
  | stop => exact Laws.EncodesOwnRow.stop hwf
  | setduty p => exact Laws.EncodesOwnRow.setduty p hwf
  | reset f => exact Laws.EncodesOwnRow.reset f hwf

/-- The command of the same row with another operand; shape Z has none. -/
def withOperand (n : Nat) : Instr → Instr
  | .init _ => .init n
  | .cfgps => .cfgps
  | .run _ => .run n
  | .stop => .stop
  | .setduty _ => .setduty n
  | .reset _ => .reset n

@[simp] theorem opcodeRow_withOperand (n : Nat) (i : Instr) : opcodeRow (withOperand n i) = opcodeRow i := by
  cases i <;> rfl

/-- A word that matches a row spells the command of that row with the word's own operand field (R55). -/
theorem decode_of_spells {c : Word} {i : Instr} (h : (opcodeRow i).spells c = true) :
    decode c = .ok (withOperand (c.toNat % 2 ^ 28) i) := by
  rw [opcodeRow_spells_nat] at h
  refine decode_of_toNat ?wellFormed ?number <;> cases i <;>
    simp only [withOperand, Instr.wellFormed, opcodeNumber, operandNumber, decide_eq_true_eq] at h ⊢ <;> omega

/-- Every mask of R55 covers the opcode, so a row fixes it. -/
theorem opcode_of_spells {c : Word} {i : Instr} (h : (opcodeRow i).spells c = true) :
    c.toNat / 2 ^ 28 = opcodeNumber i := by
  rw [opcodeRow_spells_nat] at h
  cases i <;> simp only [opcodeNumber] at h ⊢ <;> omega

/-- Settles O3: a word decodes as the row it matches says, and two rows ask for two opcodes. -/
theorem opcodeMapDecides : Obligations.OpcodeMapDecides := by
  refine ⟨fun c i h => ?_, fun c i h => ⟨_, decode_of_spells h, opcodeRow_withOperand _ i⟩, ?_⟩
  · obtain ⟨hwf, rfl⟩ := wellFormed_and_encode_of_decode h
    exact spells_encode hwf
  · have hop : [Instr.init 0, .cfgps, .run 0, .stop, .setduty 0, .reset 0].Pairwise
        (fun i j => opcodeNumber i ≠ opcodeNumber j) := by decide
    refine List.pairwise_map.2 (hop.imp fun hne c ⟨hi, hj⟩ => hne ?_)
    rw [← opcode_of_spells hi, opcode_of_spells hj]

/-- Settles O4: the branches of the decoder that answer an error test just these numbers; the others rule them out. -/
theorem illegalWords : Obligations.IllegalWords := by
  intro c
  rw [decode_nat]
  split_ifs <;> simp only [exists_false, false_iff, Except.error.injEq, exists_eq', true_iff] <;> omega

end Sys2Proof

namespace Sys2Proof.Machine

/-! ### The command port: every word is taken, a busy block holds it, no coherent state stops -/

/-- Settles O43: `fetch` takes the word and hands what it decodes to to `exec`. -/
theorem stepRunsDecoded : Obligations.StepRunsDecoded :=
  fun _ _ _ _ idle hin hd _ => step_command_ok idle hin hd

/-- An idle block has a next state on every presented word, and takes the word (R56, R58). -/
theorem step_command_next {s : State} {c : Word} {rest : List Input} (idle : s.busy = false)
    (hin : s.inputs = .command c :: rest) : ∃ t, step s = .next t ∧ t.inputs = rest := by
  cases hd : decode c with
  | error e => exact ⟨_, step_command_error idle hin hd, rfl⟩
  | ok i =>
    obtain ⟨t, ht, -, hinputs, -⟩ := exec_outside i { s with inputs := rest }
    exact ⟨t, (step_command_ok idle hin hd).trans ht, hinputs⟩

/-- A busy block with a command in `cur_cmd` goes on where `ustep` says, if that is one of the command's port operations
(R112, R147). -/
theorem resume_of_command {s : State} {i : Instr} (hwf : i.wellFormed = true) (hcmd : s.curCmd = encode i) :
    resume s = if s.ustep < (program i s.isRunning).length
      then .next (runOps ((program i s.isRunning).drop s.ustep) s) else .fault .sequencerLost := by
  rw [resume, hcmd, decode_encode hwf]
  dsimp only
  split_ifs with hlt
  · rw [List.drop_eq_getElem_cons hlt]
  · rw [List.drop_eq_nil_of_le (Nat.not_lt.1 hlt)]

/-- Settles O54, by the next input: a reset or another agent's write always lands, an idle block waits or takes the
word, and of a busy block the invariant names the port operation it waits for. -/
theorem invariantNeverStops : Obligations.InvariantNeverStops := by
  intro s hinv
  have resumes (hb : s.busy = true) : ∃ t, resume s = .next t := by
    obtain ⟨i, hwf, hcmd, -, hlt, -⟩ := hinv.sequencer hb
    exact ⟨_, (resume_of_command hwf hcmd).trans (if_pos hlt)⟩
  match hin : s.inputs, hb : s.busy with
  | .hardReset :: rest, _ => exact ⟨hardReset { s with inputs := rest }, by rw [step, fetch, hin]⟩
  | .envWrite cell :: rest, _ => exact ⟨_, step_envWrite hin⟩
  | [], false => exact ⟨s, by simp [step, fetch, hin, hb]⟩
  | .command c :: rest, false => exact (step_command_next hb hin).imp fun _ h => h.1
  | [], true => rw [step_resumes s hb (.inl hin)]; exact resumes hb
  | .command c :: rest, true => rw [step_resumes s hb (.inr ⟨c, rest, hin⟩)]; exact resumes hb

/-! ### A port that answers ends every command -/

@[simp] theorem applyAfter_answers (a : After) (s : State) : (applyAfter a s).answers = s.answers := by cases a <;> rfl
@[simp] theorem applyAfter_restAnswer (a : After) (s : State) : (applyAfter a s).restAnswer = s.restAnswer := by
  cases a <;> rfl

/-- Only an answer `wait` makes the block wait (R147). -/
theorem portReply_wait (op : PortOp) (s : State) (h : portReply op s = .wait) : nextAnswer s = .wait := by
  unfold portReply at h
  split at h <;> cases op <;> simp_all

theorem PortAnswers.nextAnswer_ne_wait {s : State} (h : PortAnswers s) : nextAnswer s ≠ .wait := by
  obtain ⟨hanswers, hrest⟩ := h
  rcases List.mem_cons.1 (nextAnswer_mem_coming s) with hn | hn
  · rwa [hn]
  · exact hanswers _ hn

/-- A port operation that completed uses up one answer and brings no other. -/
theorem PortAnswers.next {op : MicroOp} {s u : State} (h : PortAnswers s) (hu : PortDone op s u) :
    PortAnswers (applyAfter op.after u) := by
  obtain ⟨m, v, events, -, rfl⟩ := hu
  obtain ⟨hanswers, hrest⟩ := h
  exact ⟨by simpa using fun a ha => hanswers a (List.mem_of_mem_tail ha), by simpa using hrest⟩

/-- If every port operation completes, a run through port operations ends, at its end or at a failing `Acquire`. -/
theorem runOps_idle {s : State} (ops : List MicroOp) (h : PortAnswers s) : (runOps ops s).busy = false := by
  refine runOps_induct (fun _ t => PortAnswers t) (·.busy = false) ?done ?wait ?fail ?next ?after ?reads ops s h
  case done => exact fun _ _ => rfl
  case wait => exact fun op _ t ht hr => absurd (portReply_wait op.port t hr) ht.nextAnswer_ne_wait
  case fail => exact fun _ _ _ _ _ => rfl
  case next => exact fun op _ t ht _ => ht.next (portDone_perform op t)
  case after => exact fun op _ t cells ht _ => ht.next (portDone_envWrites op cells t)
  case reads => exact fun op _ t v fx ht _ => ht.next (portDone_performGiven op v fx t)

/-- Settles O45: a refused word ends at once, an admitted command when its port operations are through. -/
theorem anyWordIsTaken : Obligations.AnyWordIsTaken := by
  intro c rest s idle hin
  obtain ⟨t, hstep, hinputs⟩ := step_command_next idle hin
  refine ⟨t, hstep, hinputs, fun hport => ?_⟩
  cases step_cases hstep with
  | waits _ hin' | hardReset _ hin' | envWrite _ _ hin' => exact nomatch hin.symm.trans hin'
  | refused c' rest' => rfl
  | runs i rest' =>
    obtain ⟨hanswers, hrest⟩ := hport
    obtain ⟨-, -, hkept⟩ := commandHead_outside i (accept (encode i) { s with inputs := rest' })
    exact runOps_idle _ ⟨by simpa using hanswers, by rw [hkept]; exact hrest⟩
  | resumes i busy => exact nomatch busy.symm.trans idle

/-! ### A busy block does not see the inputs -/

/-- A port operation does not look at the inputs. -/
theorem advance_withInputs (op : MicroOp) (s : State) (xs : List Input) :
    advance op { s with inputs := xs } = { advance op s with inputs := xs } := by
  rcases op with ⟨p, a⟩
  cases p with
  | wrField u => cases u <;> cases a <;> rfl
  | acquire w | release w | rd w off | wrPeriod => cases a <;> rfl

theorem advanceGiven_withInputs (op : MicroOp) (v : Word) (fx : List Host.Cell) (s : State) (xs : List Input) :
    advanceGiven op v fx { s with inputs := xs } = { advanceGiven op v fx s with inputs := xs } := by
  rcases op with ⟨p, a⟩
  cases p with
  | rd w off => cases a <;> rfl
  | acquire w | release w | wrField u | wrPeriod => exact advance_withInputs ⟨_, a⟩ s xs

/-- Nor does a run through port operations, however it ends. -/
theorem runOps_withInputs (ops : List MicroOp) (s : State) (xs : List Input) :
    runOps ops { s with inputs := xs } = { runOps ops s with inputs := xs } := by
  induction ops generalizing s with
  | nil => rfl
  | cons op ops ih =>
    have hreply : portReply op.port { s with inputs := xs } = portReply op.port s := rfl
    cases hr : portReply op.port s with
    | wait => rw [runOps_wait _ _ _ hr, runOps_wait _ _ _ (hreply.trans hr)]; rfl
    | fail => rw [runOps_fail _ _ _ hr, runOps_fail _ _ _ (hreply.trans hr)]; rfl
    | ok =>
      rw [runOps_ok _ _ _ hr, runOps_ok _ _ _ (hreply.trans hr), ← ih, ← advance_withInputs]; rfl
    | after cells =>
      rw [runOps_after _ _ _ _ hr, runOps_after _ _ _ _ (hreply.trans hr), ← ih, ← advance_withInputs]; rfl
    | reads v fx =>
      rw [runOps_reads _ _ _ _ _ hr, runOps_reads _ _ _ _ _ (hreply.trans hr), ← ih, ← advanceGiven_withInputs]; rfl

/-- A busy block goes on whatever is presented (R58). -/
theorem resume_withInputs {s t : State} (h : resume s = .next t) (xs : List Input) :
    resume { s with inputs := xs } = .next { t with inputs := xs } := by
  obtain ⟨i, hcmd, hwf, rfl⟩ := resume_next h
  have hlt : s.ustep < (program i s.isRunning).length := by
    by_contra hge
    rw [resume_of_command hwf hcmd, if_neg hge] at h
    cases h
  rw [← runOps_withInputs]
  exact (resume_of_command (s := { s with inputs := xs }) hwf hcmd).trans (if_pos hlt)

/-- Settles O44: the block only resumes, which neither looks at the inputs nor changes them. -/
theorem busyHoldsCommand : Obligations.BusyHoldsCommand := by
  intro c rest s t busy hin hstep
  rw [step_resumes s busy (.inr ⟨c, rest, hin⟩)] at hstep
  obtain ⟨-, hinputs, -⟩ := resume_outside s t hstep
  have halone : step { s with inputs := [] } = .next { t with inputs := [] } :=
    (step_resumes { s with inputs := [] } busy (.inl rfl)).trans (resume_withInputs hstep [])
  exact ⟨hinputs, _, halone, by rw [← hinputs]⟩

/-! ### `SETDUTY d` then `RUN d`: two states that `RUN` cannot tell apart -/

/-- `t` is `s` but for `err` and the trace, which no port operation looks at. -/
def SameButReport (s t : State) : Prop := ∃ e events, t = { s with err := e, trace := events }

/-- `t` is `s` but for `duty_ticks`, `err` and the trace. -/
def SameButDuty (s t : State) : Prop := ∃ d, SameButReport { s with dutyTicks := d } t

theorem SameButReport.advance {s t : State} (h : SameButReport s t) (op : MicroOp) :
    SameButReport (advance op (dropAnswer s)) (advance op (dropAnswer t)) := by
  obtain ⟨e, events, rfl⟩ := h
  rcases op with ⟨p, a⟩
  cases p with
  | wrField u => cases u <;> cases a <;> exact ⟨e, _, rfl⟩
  | acquire w | release w | rd w off | wrPeriod => cases a <;> exact ⟨e, _, rfl⟩

/-- Only `U_PERIOD` writes `duty_ticks` to a target register (R97). -/
theorem SameButDuty.advance {s t : State} (h : SameButDuty s t) {op : MicroOp} (hop : op.port ≠ .wrPeriod) :
    SameButDuty (advance op (dropAnswer s)) (advance op (dropAnswer t)) := by
  obtain ⟨d, e, events, rfl⟩ := h
  rcases op with ⟨p, a⟩
  cases p with
  | wrField u => cases u <;> cases a <;> exact ⟨_, e, _, rfl⟩
  | acquire w | release w | rd w off => cases a <;> exact ⟨_, e, _, rfl⟩
  | wrPeriod => exact absurd rfl hop

/-- The recompute of `duty_ticks` forgets what it was (R97). -/
theorem SameButDuty.advance_latchDuty {s t : State} (h : SameButDuty s t) (u : Update) :
    SameButReport (Machine.advance ⟨.wrField u, .latchDuty⟩ (dropAnswer s))
      (Machine.advance ⟨.wrField u, .latchDuty⟩ (dropAnswer t)) := by
  obtain ⟨d, e, events, rfl⟩ := h
  cases u <;> exact ⟨e, _, rfl⟩

theorem SameButReport.advanceAll {s t : State} (h : SameButReport s t) (ops : List MicroOp) :
    SameButReport (advanceAll ops s) (advanceAll ops t) := by
  induction ops generalizing s t with
  | nil => exact h
  | cons op ops ih => exact ih (h.advance op)

theorem SameButDuty.advanceAll {s t : State} (h : SameButDuty s t) {ops : List MicroOp}
    (hops : ∀ op ∈ ops, op.port ≠ .wrPeriod) : SameButDuty (advanceAll ops s) (advanceAll ops t) := by
  induction ops generalizing s t with
  | nil => exact h
  | cons op ops ih => exact ih (h.advance (hops op (by simp))) fun o ho => hops o (by simp [ho])

/-- `SeqRun` recomputes `duty_ticks` before it writes it, so what it was before makes no difference (R97, R103). -/
theorem SameButDuty.advanceAll_seqRun {s t : State} (h : SameButDuty s t) :
    SameButReport (Machine.advanceAll seqRun s) (Machine.advanceAll seqRun t) := by
  have hsplit : seqRun = seqRun.take 6 ++ ⟨.wrField .enable, .latchDuty⟩ :: seqRun.drop 7 := rfl
  have hbefore := h.advanceAll (ops := seqRun.take 6) (by decide)
  have hafter := (hbefore.advance_latchDuty .enable).advanceAll (seqRun.drop 7)
  rw [hsplit]
  simpa only [Machine.advanceAll, List.foldl_append, List.foldl_cons] using hafter

/-- `RUN p` on a state with the nine port operations answered (R117). -/
theorem exec_run_of_answersOk {p : Nat} {s : State} (hp : p ≤ 100) (hc : s.configured = true)
    (hf : s.faulted = false) (ha : AnswersOk 9 s) :
    exec (.run p) s = .next (complete (advanceAll seqRun (runHead p (accept (encode (.run p)) s)))) := by
  have hadm : Admitted (.run p) s := (admitted_iff _ _).2 ⟨hf, hc, decide_eq_true hp⟩
  rw [exec_eq_execute, execute_admitted _ _ _ hadm]
  exact congrArg _ (runOps_of_answersOk seqRun _ ha)

/-- `SETDUTY p` while Stopped touches registers only (R123, R124). -/
theorem exec_setduty_stopped {p : Nat} {s : State} (hp : p ≤ 100) (hc : s.configured = true)
    (hf : s.faulted = false) (hr : s.isRunning = false) :
    exec (.setduty p) s = .next (complete (setdutyHead p (accept (encode (.setduty p)) s))) := by
  have hadm : Admitted (.setduty p) s :=
    (admitted_iff _ _).2 ⟨hf, hc, decide_eq_true hp⟩
  rw [exec_eq_execute, execute_admitted _ _ _ hadm, hr]
  rfl

/-- Settles O32: after `SETDUTY d` the head of `RUN d` leaves a state that differs in `duty_ticks`, `err` and the trace
alone; `SeqRun` recomputes the first and the end of the command sets the second. -/
theorem setdutyThenRunIsRun : Obligations.SetdutyThenRunIsRun := by
  intro d s hd hc hf hr ha
  refine ⟨_, _, _, exec_setduty_stopped hd hc hf hr, exec_run_of_answersOk hd hc hf ha,
    exec_run_of_answersOk hd hc hf ha, rfl, ?_⟩
  have hheads : SameButDuty (runHead d (accept (encode (.run d)) s))
      (runHead d (accept (encode (.run d)) (complete (setdutyHead d (accept (encode (.setduty d)) s))))) :=
    ⟨_, _, _, rfl⟩
  obtain ⟨e, events, heq⟩ := hheads.advanceAll_seqRun
  rw [heq]
  rfl

end Sys2Proof.Machine

namespace Sys2Proof.Machine

/-! ### The calculator: the smallest score, its uniqueness, and the ranges of `Select` -/

/-- The row that the loop of R74 must choose: eligible, and no eligible row of the table has a smaller quotient (R73). -/
structure SmallestEligible (f : Nat) (rows : List PrescalerRow) (r : PrescalerRow) : Prop where
  mem : r ∈ rows
  eligible : minTicks ≤ quotient r.divider f
  smallest : ∀ r' ∈ rows, minTicks ≤ quotient r'.divider f → quotient r.divider f ≤ quotient r'.divider f

theorem SmallestEligible.perm {f : Nat} {rows rows' : List PrescalerRow} {r : PrescalerRow}
    (h : SmallestEligible f rows r) (hp : rows.Perm rows') : SmallestEligible f rows' r :=
  ⟨hp.mem_iff.1 h.mem, h.eligible, fun r' hr' => h.smallest r' (hp.mem_iff.2 hr')⟩

/-- The two ways the selection ends: on a row of smallest score, or, no row being eligible, on the fallback (R74). -/
theorem selectFrom_cases (order : List PrescalerRow) (f : Nat) :
    (∃ r, SmallestEligible f order r ∧ selectFrom order f = ⟨r.code, quotient r.divider f, false⟩) ∨
    (∀ r ∈ order, quotient r.divider f < minTicks) ∧ selectFrom order f = ⟨fallbackCode, quotient 1 f, true⟩ := by
  have hbest := bestAmong_foldl f order
  cases hb : order.foldl (selectTurn f) none with
  | none => exact .inr ⟨by rwa [hb] at hbest, selectFrom_of_none hb⟩
  | some b =>
    rw [hb] at hbest
    obtain ⟨⟨r, hr, hcode, hq⟩, -, hmin, hle⟩ := hbest
    rw [hq] at hmin hle
    exact .inl ⟨r, ⟨hr, hmin, hle⟩, by rw [selectFrom_of_some hb, hcode, hq]⟩

/-- R75 (c), of the table alone: two different dividers are at least a factor 4/3 apart. -/
theorem dividers_apart : ∀ r₁ ∈ prescalerTable, ∀ r₂ ∈ prescalerTable,
    r₁ = r₂ ∨ 4 * r₁.divider ≤ 3 * r₂.divider ∨ 4 * r₂.divider ≤ 3 * r₁.divider := by decide

theorem divider_pos : ∀ r ∈ prescalerTable, 0 < r.divider := by decide

/-- The two floor divisions of R72 are one division by the product. -/
theorem le_quotient_iff {d f : Nat} (hd : 0 < d) (hf : 1 ≤ f) (q : Nat) :
    q ≤ quotient d f ↔ q * (d * f) ≤ baseClockHz := by
  rw [quotient, Nat.div_div_eq_div_mul, Nat.le_div_iff_mul_le (Nat.mul_pos hd hf)]

/-- R72: a row is eligible exactly when `f <= 120000 // divider`. -/
theorem eligible_iff {d f : Nat} (hd : 0 < d) (hf : 1 ≤ f) : minTicks ≤ quotient d f ↔ f ≤ 120000 / d := by
  have hticks : baseClockHz = minTicks * 120000 := by decide
  rw [le_quotient_iff hd hf, hticks, Nat.mul_le_mul_left_iff (by decide : 0 < minTicks),
    Nat.le_div_iff_mul_le hd, Nat.mul_comm]

/-- A larger divider has no larger quotient. -/
theorem quotient_le_of_divider_le {d₁ d₂ : Nat} (f : Nat) (hd : 0 < d₁) (h : d₁ ≤ d₂) :
    quotient d₂ f ≤ quotient d₁ f := Nat.div_le_div_right (Nat.div_le_div_left h hd)

/-- R75 (c): a divider at least 4/3 times as large, if still eligible, has a strictly smaller quotient. -/
theorem quotient_lt_of_dividers_apart {d₁ d₂ f : Nat} (hd : 0 < d₁) (hf : 1 ≤ f) (h : 4 * d₁ ≤ 3 * d₂)
    (he : minTicks ≤ quotient d₂ f) : quotient d₂ f < quotient d₁ f := by
  have hq : (quotient d₂ f) * (d₂ * f) ≤ baseClockHz := (le_quotient_iff (by omega) hf _).1 le_rfl
  have hscale : 3 * (quotient d₂ f + 1) ≤ 4 * quotient d₂ f := by rw [minTicks] at he; omega
  refine (le_quotient_iff hd hf _).2 (le_trans ?_ hq)
  refine Nat.le_of_mul_le_mul_left (c := 4 * 3) ?_ (by decide)
  calc 4 * 3 * ((quotient d₂ f + 1) * (d₁ * f)) = 3 * (quotient d₂ f + 1) * (4 * d₁ * f) := by ring
    _ ≤ 4 * quotient d₂ f * (3 * d₂ * f) := Nat.mul_le_mul hscale (Nat.mul_le_mul_right f h)
    _ = 4 * 3 * (quotient d₂ f * (d₂ * f)) := by ring

/-- R75 (c): two rows with the same quotient, if eligible, are the same row. -/
theorem row_eq_of_quotient_eq {f : Nat} {r₁ r₂ : PrescalerRow} (hf : 1 ≤ f) (h₁ : r₁ ∈ prescalerTable)
    (h₂ : r₂ ∈ prescalerTable) (he : minTicks ≤ quotient r₁.divider f)
    (hq : quotient r₁.divider f = quotient r₂.divider f) : r₁ = r₂ := by
  rcases dividers_apart r₁ h₁ r₂ h₂ with h | h | h
  · exact h
  · exact absurd hq.symm (quotient_lt_of_dividers_apart (divider_pos r₁ h₁) hf h (hq ▸ he)).ne
  · exact absurd hq (quotient_lt_of_dividers_apart (divider_pos r₂ h₂) hf h he).ne

theorem SmallestEligible.unique {f : Nat} {r₁ r₂ : PrescalerRow} (hf : 1 ≤ f)
    (h₁ : SmallestEligible f prescalerTable r₁) (h₂ : SmallestEligible f prescalerTable r₂) : r₁ = r₂ :=
  row_eq_of_quotient_eq hf h₁.mem h₂.mem h₁.eligible
    ((h₁.smallest _ h₂.mem h₂.eligible).antisymm (h₂.smallest _ h₁.mem h₁.eligible))

/-- In whatever order the table is gone through, a row of smallest score is the one selected (R73). -/
theorem SmallestEligible.selectFrom_eq {f : Nat} {order : List PrescalerRow} {r : PrescalerRow} (hf : 1 ≤ f)
    (hp : order.Perm prescalerTable) (h : SmallestEligible f prescalerTable r) :
    selectFrom order f = ⟨r.code, quotient r.divider f, false⟩ := by
  rcases selectFrom_cases order f with ⟨r', hr', heq⟩ | ⟨hnone, -⟩
  · rw [heq, (hr'.perm hp).unique hf h]
  · exact absurd h.eligible (Nat.not_le.2 (hnone r (hp.mem_iff.2 h.mem)))

theorem selectFrom_of_no_eligible {f : Nat} {order : List PrescalerRow}
    (h : ∀ r ∈ order, quotient r.divider f < minTicks) : selectFrom order f = ⟨fallbackCode, quotient 1 f, true⟩ := by
  rcases selectFrom_cases order f with ⟨r, hr, -⟩ | ⟨-, heq⟩
  · exact absurd hr.eligible (Nat.not_le.2 (h r hr.mem))
  · exact heq

/-- `lo .. hi` lies in the range of a row of R75 (a): its divider is eligible there and no larger one is. -/
@[reducible] def RangeOf (r : PrescalerRow) (lo hi : Nat) : Prop :=
  r ∈ prescalerTable ∧ 1 ≤ lo ∧ hi ≤ 120000 / r.divider ∧
    ∀ r' ∈ prescalerTable, r.divider < r'.divider → 120000 / r'.divider < lo

/-- The row selected is the eligible one of largest divider (R75 (a)). -/
theorem select_of_rangeOf (r : PrescalerRow) (lo hi : Nat) {f : Nat} (hrange : RangeOf r lo hi)
    (hf : lo ≤ f ∧ f ≤ hi) : select f = ⟨r.code, quotient r.divider f, false⟩ := by
  obtain ⟨hr, hlo, hhi, hlarger⟩ := hrange
  have h1 : 1 ≤ f := hlo.trans hf.1
  refine SmallestEligible.selectFrom_eq h1 (List.Perm.refl _)
    ⟨hr, (eligible_iff (divider_pos r hr) h1).2 (hf.2.trans hhi), fun r' hr' he => ?_⟩
  have hle := (eligible_iff (divider_pos r' hr') h1).1 he
  exact quotient_le_of_divider_le f (divider_pos r' hr')
    (Nat.not_lt.1 fun hlt => absurd (hle.trans_lt (hlarger r' hr' hlt)) hf.1.not_gt)

/-- Above 120000 Hz no row is eligible and the selection falls back to divide by 1 (R75 (a)). -/
theorem select_of_gt {f : Nat} (h : 120000 < f) : select f = ⟨fallbackCode, quotient 1 f, true⟩ := by
  refine selectFrom_of_no_eligible fun r hr => Nat.not_le.1 fun he => ?_
  have hle := (eligible_iff (divider_pos r hr) (by omega)).1 he
  have hdiv := Nat.div_le_self 120000 r.divider
  omega

/-- Settles O6: the ranges of R75 (a) one after the other, each with its row. -/
theorem selectByRange : Obligations.SelectByRange := by
  intro f h1 _
  refine iteInduction (fun _ => select_of_rangeOf ⟨0b1100, 72000⟩ 1 1 (by decide) (by omega)) fun _ => ?_
  refine iteInduction (fun _ => select_of_rangeOf ⟨0b1011, 48000⟩ 2 2 (by decide) (by omega)) fun _ => ?_
  refine iteInduction (fun _ => select_of_rangeOf ⟨0b1010, 36000⟩ 3 3 (by decide) (by omega)) fun _ => ?_
  refine iteInduction (fun _ => select_of_rangeOf ⟨0b1001, 24000⟩ 4 5 (by decide) (by omega)) fun _ => ?_
  refine iteInduction (fun _ => select_of_rangeOf ⟨0b1000, 12000⟩ 6 10 (by decide) (by omega)) fun _ => ?_
  refine iteInduction (fun _ => select_of_rangeOf ⟨0b0100, 480⟩ 11 250 (by decide) (by omega)) fun _ => ?_
  refine iteInduction (fun _ => select_of_rangeOf ⟨0b0011, 360⟩ 251 333 (by decide) (by omega)) fun _ => ?_
  refine iteInduction (fun _ => select_of_rangeOf ⟨0b0010, 240⟩ 334 500 (by decide) (by omega)) fun _ => ?_
  refine iteInduction (fun _ => select_of_rangeOf ⟨0b0001, 180⟩ 501 666 (by decide) (by omega)) fun _ => ?_
  refine iteInduction (fun _ => select_of_rangeOf ⟨0b0000, 120⟩ 667 1000 (by decide) (by omega)) fun _ => ?_
  refine iteInduction (fun _ => select_of_rangeOf ⟨0b1111, 1⟩ 1001 120000 (by decide) (by omega)) fun _ => ?_
  exact select_of_gt (by omega)

/-- R75 (b): the period is below 200 exactly at a fallback, since the divide-by-1 row is a row of the table too. -/
theorem select_fellBack_iff (f : Nat) : (select f).fellBack = true ↔ (select f).period < minTicks := by
  rcases selectFrom_cases prescalerTable f with ⟨r, hr, heq⟩ | ⟨hnone, heq⟩
  · simpa [select, heq] using hr.eligible
  · simpa [select, heq] using hnone ⟨fallbackCode, 1⟩ (by decide)

/-- Settles O7, from what `Select` answers and from when it falls back. -/
theorem selectBounds : Obligations.SelectBounds := by
  intro f h1 h2
  obtain ⟨hkey, hlo, hhi⟩ := select_spec h1 h2
  exact ⟨hkey, hlo, hhi, select_fellBack_iff f⟩

/-- Settles O8: the loop ends on a row of smallest score, and rows whose dividers are a factor 4/3 apart do not tie. -/
theorem selectSmallestScore : Obligations.SelectSmallestScore := by
  refine ⟨fun f r _ _ hr he => ?_, fun f r₁ r₂ hf h₁ h₂ he hq => row_eq_of_quotient_eq hf h₁ h₂ he hq⟩
  rcases selectFrom_cases prescalerTable f with ⟨r', hr', heq⟩ | ⟨hnone, -⟩
  · rw [select, heq]
    exact ⟨rfl, hr'.eligible, hr'.smallest r hr he⟩
  · exact absurd he (Nat.not_le.2 (hnone r hr))

/-- Settles O9: what `Select` answers depends on the rows alone, the row of smallest score being unique. -/
theorem selectOrderIrrelevant : Obligations.SelectOrderIrrelevant := by
  intro order f hp hf _
  rcases selectFrom_cases prescalerTable f with ⟨r, hr, heq⟩ | ⟨hnone, heq⟩
  · rw [select, heq, hr.selectFrom_eq hf hp]
  · rw [select, heq, selectFrom_of_no_eligible fun r hr => hnone r (hp.mem_iff.1 hr)]

/-- The selected code is a key of the table, at a fallback too (R71). -/
theorem exists_row_of_select (f : Nat) : ∃ r ∈ prescalerTable, (select f).code = r.code := by
  rcases selectFrom_cases prescalerTable f with ⟨r, hr, heq⟩ | ⟨-, heq⟩
  · exact ⟨r, hr.mem, by rw [select, heq]⟩
  · exact ⟨⟨fallbackCode, 1⟩, by decide, by rw [select, heq]⟩

/-- Settles O10: no key of the table is an invalid code. -/
theorem selectNeverInvalidCode : Obligations.SelectNeverInvalidCode := by
  intro f
  obtain ⟨r, hr, hcode⟩ := exists_row_of_select f
  have hvalid : ∀ r ∈ prescalerTable, r.code ∉ [0b0101#4, 0b0110#4, 0b0111#4, 0b1101#4, 0b1110#4] := by decide
  exact hcode ▸ hvalid r hr

/-! ### The calculator: duty ticks and the packed word -/

/-- Settles O11: the register receives the formula of R77 whole; the corner cases are the formula's. -/
theorem dutyTicksExact : Obligations.DutyTicksExact := by
  intro s _ hper hpct
  obtain ⟨heq, hle⟩ := dutyOk_latchDuty hpct
  rw [latchDuty_periodTicks, latchDuty_dutyPct, dutyTicksOf] at heq
  refine ⟨heq, hle, fun h0 => ?_, fun h100 => BitVec.eq_of_toNat_eq ?_, fun h1 hlt => ?_,
    Nat.mul_le_mul hper hpct, by decide⟩
  · rw [heq, h0, Nat.mul_zero, Nat.zero_div]
  · rw [heq, h100, Nat.mul_div_cancel _ (by decide)]
  · rw [heq, h1, Nat.one_mul, Nat.div_eq_of_lt hlt]

/-- Settles O12: `Pack` appends the two halves. -/
theorem packHalves : Obligations.PackHalves := by
  intro period duty
  refine ⟨?_, ?_, ?_⟩
  · rw [pack, BitVec.toNat_append, ← Nat.shiftLeft_add_eq_or_of_lt duty.isLt, Nat.shiftLeft_eq]
  · exact BitVec.extractLsb'_append_eq_left
  · exact BitVec.extractLsb'_append_eq_right

end Sys2Proof.Machine

namespace Sys2Proof.Machine

/-! ### The RMW word -/

/-- Words with no bit in common, bit by bit. -/
theorem getElem_of_and_eq_zero {x y : Word} (h : x &&& y = 0) (i : Nat) (hi : i < 32) : (x[i] && y[i]) = false := by
  rw [← BitVec.getElem_and, h]
  exact BitVec.getElem_zero hi

/-- R92 (b): the second merge finds its field cleared of all but its own value. -/
theorem mergeField_self (m v x : Word) : mergeField m v (mergeField m v x) = mergeField m v x := by
  simp only [mergeField]; ext i; grind

/-- A later merge of a field forgets the value an earlier one put there. -/
theorem mergeField_overwrites {m v : Word} (w x : Word) (hv : v &&& ~~~m = 0) :
    mergeField m w (mergeField m v x) = mergeField m w x := by
  simp only [mergeField]; ext i hi
  have := getElem_of_and_eq_zero hv i hi
  grind

/-- R92 (a): a merge leaves alone every bit outside its field. -/
theorem mergeField_and {m v k : Word} (x : Word) (hv : v &&& ~~~m = 0) (hk : m &&& k = 0) :
    mergeField m v x &&& k = x &&& k := by
  simp only [mergeField]; ext i hi
  have := getElem_of_and_eq_zero hv i hi
  have := getElem_of_and_eq_zero hk i hi
  grind

/-- R92 (c). -/
theorem mergeField_comm {m₁ v₁ m₂ v₂ : Word} (x : Word) (h₁ : v₁ &&& ~~~m₁ = 0) (h₂ : v₂ &&& ~~~m₂ = 0)
    (hm : m₁ &&& m₂ = 0) :
    mergeField m₁ v₁ (mergeField m₂ v₂ x) = mergeField m₂ v₂ (mergeField m₁ v₁ x) := by
  simp only [mergeField]; ext i hi
  have := getElem_of_and_eq_zero h₁ i hi
  have := getElem_of_and_eq_zero h₂ i hi
  have := getElem_of_and_eq_zero hm i hi
  grind

/-- Settles O16: bit by bit, a merge takes the value inside its mask and the old word outside it. -/
theorem rmwIdempotentCommutes : Obligations.RmwIdempotentCommutes :=
  ⟨mergeField_self, fun _ _ _ _ x h₁ h₂ hm => mergeField_comm x h₁ h₂ hm⟩

/-- A merge that sets the whole field. -/
theorem mergeField_ones (m x : Word) : mergeField m m x = x ||| m := by
  simp only [mergeField]; ext i; grind

/-- A merge that clears the field. -/
theorem mergeField_zero (m x : Word) : mergeField m 0 x = x &&& ~~~m := BitVec.or_zero

/-- Settles O17: `CH_EN` is set or cleared whole and `PIN_OUT` cleared; the other three put a value into their field. -/
theorem updateWords : Obligations.UpdateWords :=
  fun _ old => ⟨rfl, rfl, mergeField_ones maskChEn old, rfl, mergeField_zero maskPinOut old,
    mergeField_zero maskChEn old⟩

/-- A code written to `PRESCAL` or to `PIN_FUNC` fits its field (R93). -/
theorem prescal_in_field : ∀ c : BitVec 4, c.zeroExtend 32 &&& ~~~maskPrescal = 0 := by decide

theorem pinFunc_in_field : ∀ c : BitVec 3, c.zeroExtend 32 <<< 20 &&& ~~~maskPinFunc = 0 := by decide

/-- An update's value lies in the update's field (R91, R93). -/
theorem updateValue_in_field (s : State) (u : Update) : updateValue s u &&& ~~~updateMask u = 0 := by
  cases u with
  | prescal => exact prescal_in_field s.prescalerCode
  | pinPwm => exact pinFunc_in_field pwmFuncCode
  | pinGpio => exact pinFunc_in_field s.params.gpioOutCode
  | enable => exact BitVec.and_not_self maskChEn
  | pinLow | disable => exact BitVec.zero_and

/-! ### The memory an update leaves -/

/-- Physical address of the register an update works on (R93). -/
def updateAddr (s : State) (u : Update) : Nat := portAddr s.params (updateWindow u) (updateOffset u)

/-- The word an update makes of an old one. -/
def updatedWord (s : State) (u : Update) (old : Word) : Word := mergeField (updateMask u) (updateValue s u) old

/-- The memory after the `RMW` of an update (R91). -/
def updatedMem (s : State) (u : Update) (m : Memory) : Memory :=
  writeWord m (updateAddr s u) (updatedWord s u (readWord m (updateAddr s u)))

/-- The value an update writes does not come from what the `Rd` before it changes. -/
theorem updateValue_portRd (u : Update) (w : Window) (off : Nat) (s : State) :
    updateValue (portRd w off s) u = updateValue s u := by
  cases u <;> rfl

/-- The `Rd` and the `Wr` of an update (R91). -/
theorem mem_update (u : Update) (s : State) :
    (perform (.wrField u) (perform (.rd (updateWindow u) (updateOffset u)) s)).mem = updatedMem s u s.mem := by
  simp [updateValue_portRd, updatedMem, updatedWord, updateAddr]

theorem updatedMem_wf (s : State) (u : Update) {m : Memory} (h : Memory.wf m) : Memory.wf (updatedMem s u m) :=
  writeWord_wf _ _ _ h

theorem readWord_updatedMem_same (s : State) (u : Update) {m : Memory} (h : Memory.wf m) :
    readWord (updatedMem s u m) (updateAddr s u) = updatedWord s u (readWord m (updateAddr s u)) :=
  readWord_writeWord_same _ _ _ h

theorem readByte_updatedMem_outside (s : State) (u : Update) {m : Memory} (h : Memory.wf m) {a : Nat}
    (ha : ¬ InWord a (updateAddr s u)) : readByte (updatedMem s u m) a = readByte m a :=
  readByte_writeWord_outside _ _ _ h a ha

/-- Settles O15: the word written is the merge over the word read, at the address read. -/
theorem rmwLocality : Obligations.RmwLocality := by
  intro u s h a t
  have ht : t.mem = updatedMem s u s.mem := mem_update u s
  have hword : readWord t.mem a = updatedWord s u (readWord s.mem a) := by
    rw [ht]; exact readWord_updatedMem_same s u h
  refine ⟨hword, ?_, fun x hx => ?_⟩
  · rw [hword]
    exact mergeField_and _ (updateValue_in_field s u) (BitVec.and_not_self _)
  · rw [ht]
    exact readByte_updatedMem_outside s u h (hx a (by simp))

end Sys2Proof.Machine

namespace Sys2Proof.Machine

/-! ### Writing what is there -/

/-- Writing the byte that an address reads as changes nothing. -/
theorem writeByte_readByte {m : Memory} (h : Memory.wf m) (a : Nat) : writeByte m a (readByte m a) = m := by
  induction m with
  | nil => rfl
  | cons c m ih =>
    rcases lt_trichotomy a c.1 with hac | hac | hac
    · have hbelow : ∀ d ∈ c :: m, a < d.1 :=
        List.forall_mem_cons.2 ⟨hac, fun d hd => hac.trans (wf_head_lt h d hd)⟩
      rw [readByte_below _ a hbelow, writeByte, if_pos hac, consByte, if_pos rfl]
    · rw [readByte_cons, if_pos hac.symm, writeByte, if_neg (by omega), if_pos hac, consByte,
        if_neg (h.2 c List.mem_cons_self), hac]
    · rw [readByte_cons, if_neg (by omega), writeByte, if_neg (by omega), if_neg (by omega), ih (wf_tail h)]

/-- Byte `k` of the word at `a` is the byte at `a + k` (R34). -/
theorem wordByte_readWord (m : Memory) (a : Nat) {k : Nat} (hk : k < 4) :
    wordByte (readWord m a) k = readByte m (a + k) := by
  apply BitVec.eq_of_getLsbD_eq
  intro i hi
  simp only [wordByte, readWord, BitVec.getLsbD_extractLsb', BitVec.getLsbD_append]
  obtain rfl | rfl | rfl | rfl : k = 0 ∨ k = 1 ∨ k = 2 ∨ k = 3 := by omega
  all_goals grind

/-- Writing the word that an address reads as changes nothing. -/
theorem writeWord_readWord {m : Memory} (h : Memory.wf m) (a : Nat) : writeWord m a (readWord m a) = m := by
  rw [writeWord, wordByte_readWord _ _ (by decide), wordByte_readWord _ _ (by decide),
    wordByte_readWord _ _ (by decide), wordByte_readWord _ _ (by decide), Nat.add_zero, writeByte_readByte h,
    writeByte_readByte h, writeByte_readByte h, writeByte_readByte h]

/-- An update whose field already holds its value changes nothing (R92 (b)). -/
theorem updatedMem_eq_self {s : State} {u : Update} {m : Memory} {old : Word} (h : Memory.wf m)
    (hold : readWord m (updateAddr s u) = updatedWord s u old) : updatedMem s u m = m := by
  have hself : updatedWord s u (readWord m (updateAddr s u)) = readWord m (updateAddr s u) := by
    rw [hold, updatedWord, updatedWord, mergeField_self]
  rw [updatedMem, hself, writeWord_readWord h]

/-! ### The target registers lie apart -/

/-- The words at `a` and `b` share no byte. -/
abbrev Apart (a b : Nat) : Prop := a + 4 ≤ b ∨ b + 4 ≤ a

/-- Two windows are apart, so registers inside them are too, and within one window their offsets decide (R6, R37). -/
theorem portAddr_apart {p : Params} (hp : p.Legal) {w w' : Window} {off off' : Nat}
    (hoff : off + 4 ≤ windowBytes) (hoff' : off' + 4 ≤ windowBytes) (h : w = w' → Apart off off') :
    Apart (portAddr p w off) (portAddr p w' off') := by
  obtain ⟨hpin, hpwm, hne, -⟩ := hp
  unfold windowBytes at *
  cases w <;> cases w' <;> simp only [portAddr, windowBase, Apart, forall_const, reduceCtorEq, false_implies] at h ⊢ <;>
    omega

theorem updateOffset_in_window (u : Update) : updateOffset u + 4 ≤ windowBytes := by cases u <;> decide

/-- Two updates work on the same register or on words that share no byte (R37, R93). -/
theorem updateAddr_apart {s : State} (hl : s.params.Legal) {u v : Update}
    (h : (updateWindow u, updateOffset u) ≠ (updateWindow v, updateOffset v)) :
    Apart (updateAddr s u) (updateAddr s v) := by
  refine portAddr_apart hl (updateOffset_in_window u) (updateOffset_in_window v) ?_
  cases u <;> cases v <;> revert h <;> decide

/-- No update works on `PWM_PERIOD` (R37, R93). -/
theorem addrPwmPeriod_apart {s : State} (hl : s.params.Legal) (u : Update) :
    Apart (addrPwmPeriod s) (updateAddr s u) := by
  refine portAddr_apart hl (by decide) (updateOffset_in_window u) ?_
  cases u <;> decide

theorem readWord_updatedMem_other (s : State) (u : Update) {m : Memory} (h : Memory.wf m) {b : Nat}
    (hb : Apart (updateAddr s u) b) : readWord (updatedMem s u m) b = readWord m b :=
  readWord_writeWord_other _ _ _ _ h hb

/-! ### What `SeqRun` and `SeqStop` leave in memory -/

/-- The memory after `U_PERIOD`, which is no `RMW` (R97). -/
def periodMem (s : State) (m : Memory) : Memory :=
  writeWord m (addrPwmPeriod s) (pack s.periodTicks (latchDuty s).dutyTicks)

/-- What a completed `SeqRun` leaves of a state `s`, as far as later commands depend on it (R97, R103). -/
structure SeqRunEnds (s t : State) : Prop where
  params : t.params = s.params
  timing : SameTiming s t
  dutyTicks : t.dutyTicks = (latchDuty s).dutyTicks
  dutyPct : t.dutyPct = s.dutyPct
  isRunning : t.isRunning = true
  configured : t.configured = s.configured
  faulted : t.faulted = s.faulted
  answer : ∀ k, t.answer k = s.answer (k + 9)
  mem : t.mem = periodMem s (updatedMem s .enable (updatedMem s .pinPwm s.mem))

/-- What a completed `SeqStop` leaves of a state `s` (R104). -/
structure SeqStopEnds (s t : State) : Prop where
  params : t.params = s.params
  isRunning : t.isRunning = false
  mem : t.mem = updatedMem s .disable (updatedMem s .pinLow (updatedMem s .pinGpio s.mem))

theorem seqRunEnds_advanceAll (s : State) : SeqRunEnds s (complete (advanceAll seqRun s)) where
  answer := advanceAll_answer seqRun s
  mem := by
    simp [seqRun, rmw, advance_eq, periodMem, updatedMem, updatedWord, updateAddr, updateWindow, updateOffset,
      updateMask, updateValue]
  params := by simp [seqRun, rmw, advance_eq]
  timing := by simp [seqRun, rmw, advance_eq, SameTiming]
  dutyTicks := by simp [seqRun, rmw, advance_eq]
  dutyPct := by simp [seqRun, rmw, advance_eq]
  isRunning := by simp [seqRun, rmw, advance_eq]
  configured := by simp [seqRun, rmw, advance_eq]
  faulted := by simp [seqRun, rmw, advance_eq]

theorem seqStopEnds_advanceAll (s : State) : SeqStopEnds s (complete (advanceAll seqStop s)) where
  params := by simp [seqStop, rmw, advance_eq]
  isRunning := by simp [seqStop, rmw, advance_eq]
  mem := by
    simp [seqStop, rmw, advance_eq, updatedMem, updatedWord, updateAddr, updateWindow, updateOffset, updateMask,
      updateValue]

/-- `RUN p` with its nine port operations answered (R117). -/
theorem exec_run_ends {p : Nat} {s : State} (hp : p ≤ 100) (hc : s.configured = true) (hf : s.faulted = false)
    (ha : AnswersOk 9 s) : ∃ t, exec (.run p) s = .next t ∧ SeqRunEnds (runHead p s) t := by
  obtain ⟨hparams, htiming, hticks, hpct, hrun, hconf, hfault, hanswer, hmem⟩ :=
    seqRunEnds_advanceAll (runHead p (accept (encode (.run p)) s))
  exact ⟨_, exec_run_of_answersOk hp hc hf ha, hparams, htiming, hticks, hpct, hrun, hconf, hfault, hanswer, hmem⟩

/-- `STOP` with its ten port operations answered (R120). -/
theorem exec_stop_ends {s : State} (hc : s.configured = true) (hf : s.faulted = false) (ha : AnswersOk 10 s) :
    ∃ t, exec .stop s = .next t ∧ SeqStopEnds s t := by
  have hadm : Admitted .stop s := (admitted_iff _ _).2 ⟨hf, hc, rfl⟩
  obtain ⟨hparams, hrun, hmem⟩ := seqStopEnds_advanceAll (accept (encode .stop) s)
  refine ⟨_, ?_, hparams, hrun, hmem⟩
  rw [exec_eq_execute, execute_admitted _ _ _ hadm]
  exact congrArg _ (runOps_of_answersOk seqStop _ ha)

end Sys2Proof.Machine

namespace Sys2Proof.Machine

/-! ### The words after `SeqRun` and after `SeqStop` -/

section SeqRun

variable {s t : State} (ht : SeqRunEnds s t) (hm : Memory.wf s.mem) (hl : s.params.Legal)
include ht hm

theorem SeqRunEnds.memory : Memory.wf t.mem := by
  rw [ht.mem]; exact writeWord_wf _ _ _ (updatedMem_wf s .enable (updatedMem_wf s .pinPwm hm))

theorem SeqRunEnds.pwmPeriod : t.pwmPeriod = pack s.periodTicks t.dutyTicks := by
  rw [State.pwmPeriod, ht.mem, ht.params, ht.dutyTicks]
  exact readWord_writeWord_same _ _ _ (updatedMem_wf s .enable (updatedMem_wf s .pinPwm hm))

theorem SeqRunEnds.bytes : MemorySameOutside [addrPinCfg s, addrPwmCtrl s, addrPwmPeriod s] s t := by
  have h₁ := updatedMem_wf s .pinPwm hm
  intro a ha
  obtain ⟨hcfg, hctrl, hper⟩ :
      ¬ InWord a (addrPinCfg s) ∧ ¬ InWord a (addrPwmCtrl s) ∧ ¬ InWord a (addrPwmPeriod s) := by simpa using ha
  rw [ht.mem, periodMem, readByte_writeWord_outside _ _ _ (updatedMem_wf s .enable h₁) a hper,
    readByte_updatedMem_outside s .enable h₁ hctrl, readByte_updatedMem_outside s .pinPwm hm hcfg]

include hl

/-- `U_PERIOD` comes last and writes no register of an update. -/
theorem SeqRunEnds.readWord_updateAddr (u : Update) : readWord t.mem (updateAddr s u) =
    readWord (updatedMem s .enable (updatedMem s .pinPwm s.mem)) (updateAddr s u) := by
  rw [ht.mem]
  exact readWord_writeWord_other _ _ _ _ (updatedMem_wf s .enable (updatedMem_wf s .pinPwm hm))
    (addrPwmPeriod_apart hl u)

theorem SeqRunEnds.pinCfg : t.pinCfg = pinPwmWord s.pinCfg := by
  rw [State.pinCfg, ht.params]
  calc readWord t.mem (updateAddr s .pinPwm)
    _ = readWord (updatedMem s .pinPwm s.mem) (updateAddr s .pinPwm) :=
      (ht.readWord_updateAddr hm hl .pinPwm).trans
        (readWord_updatedMem_other s .enable (updatedMem_wf s .pinPwm hm) (updateAddr_apart hl (by decide)))
    _ = pinPwmWord s.pinCfg := readWord_updatedMem_same s .pinPwm hm

theorem SeqRunEnds.pinDat : t.pinDat = s.pinDat := by
  rw [State.pinDat, ht.params]
  calc readWord t.mem (updateAddr s .pinLow)
    _ = readWord (updatedMem s .pinPwm s.mem) (updateAddr s .pinLow) :=
      (ht.readWord_updateAddr hm hl .pinLow).trans
        (readWord_updatedMem_other s .enable (updatedMem_wf s .pinPwm hm) (updateAddr_apart hl (by decide)))
    _ = s.pinDat := readWord_updatedMem_other s .pinPwm hm (updateAddr_apart hl (by decide))

theorem SeqRunEnds.pwmCtrl : t.pwmCtrl = s.pwmCtrl ||| 0x00000070 := by
  rw [State.pwmCtrl, ht.params]
  calc readWord t.mem (updateAddr s .enable)
    _ = updatedWord s .enable (readWord (updatedMem s .pinPwm s.mem) (updateAddr s .enable)) :=
      (ht.readWord_updateAddr hm hl .enable).trans
        (readWord_updatedMem_same s .enable (updatedMem_wf s .pinPwm hm))
    _ = updatedWord s .enable s.pwmCtrl :=
      congrArg _ (readWord_updatedMem_other s .pinPwm hm (updateAddr_apart hl (by decide)))
    _ = s.pwmCtrl ||| 0x00000070 := mergeField_ones maskChEn _

end SeqRun

section SeqStop

variable {s t : State} (ht : SeqStopEnds s t) (hm : Memory.wf s.mem) (hl : s.params.Legal)
include ht hm

theorem SeqStopEnds.bytes : MemorySameOutside [addrPinCfg s, addrPinDat s, addrPwmCtrl s] s t := by
  have h₁ := updatedMem_wf s .pinGpio hm
  intro a ha
  obtain ⟨hcfg, hdat, hctrl⟩ : ¬ InWord a (addrPinCfg s) ∧ ¬ InWord a (addrPinDat s) ∧ ¬ InWord a (addrPwmCtrl s) := by
    simpa using ha
  rw [ht.mem, readByte_updatedMem_outside s .disable (updatedMem_wf s .pinLow h₁) hctrl,
    readByte_updatedMem_outside s .pinLow h₁ hdat, readByte_updatedMem_outside s .pinGpio hm hcfg]

/-- `U_DISABLE` comes last. -/
theorem SeqStopEnds.readWord_of_apart {b : Nat} (hb : Apart (updateAddr s .disable) b) :
    readWord t.mem b = readWord (updatedMem s .pinLow (updatedMem s .pinGpio s.mem)) b := by
  rw [ht.mem]
  exact readWord_updatedMem_other s .disable (updatedMem_wf s .pinLow (updatedMem_wf s .pinGpio hm)) hb

include hl

theorem SeqStopEnds.pinCfg : t.pinCfg = pinGpioWord s.params.gpioOutCode s.pinCfg := by
  rw [State.pinCfg, ht.params]
  calc readWord t.mem (updateAddr s .pinGpio)
    _ = readWord (updatedMem s .pinGpio s.mem) (updateAddr s .pinGpio) :=
      (ht.readWord_of_apart hm (updateAddr_apart hl (by decide))).trans
        (readWord_updatedMem_other s .pinLow (updatedMem_wf s .pinGpio hm) (updateAddr_apart hl (by decide)))
    _ = pinGpioWord s.params.gpioOutCode s.pinCfg := readWord_updatedMem_same s .pinGpio hm

theorem SeqStopEnds.pinDat : t.pinDat = s.pinDat &&& 0xFFFFFFDF := by
  rw [State.pinDat, ht.params]
  calc readWord t.mem (updateAddr s .pinLow)
    _ = updatedWord s .pinLow (readWord (updatedMem s .pinGpio s.mem) (updateAddr s .pinLow)) :=
      (ht.readWord_of_apart hm (updateAddr_apart hl (by decide))).trans
        (readWord_updatedMem_same s .pinLow (updatedMem_wf s .pinGpio hm))
    _ = updatedWord s .pinLow s.pinDat :=
      congrArg _ (readWord_updatedMem_other s .pinGpio hm (updateAddr_apart hl (by decide)))
    _ = s.pinDat &&& 0xFFFFFFDF := mergeField_zero maskPinOut _

theorem SeqStopEnds.pwmCtrl : t.pwmCtrl = s.pwmCtrl &&& 0xFFFFFF8F := by
  rw [State.pwmCtrl, ht.params, ht.mem]
  have h₁ := updatedMem_wf s .pinGpio hm
  calc readWord (updatedMem s .disable (updatedMem s .pinLow (updatedMem s .pinGpio s.mem))) (updateAddr s .disable)
    _ = updatedWord s .disable
          (readWord (updatedMem s .pinLow (updatedMem s .pinGpio s.mem)) (updateAddr s .disable)) :=
      readWord_updatedMem_same s .disable (updatedMem_wf s .pinLow h₁)
    _ = updatedWord s .disable s.pwmCtrl :=
      congrArg _ ((readWord_updatedMem_other s .pinLow h₁ (updateAddr_apart hl (by decide))).trans
        (readWord_updatedMem_other s .pinGpio hm (updateAddr_apart hl (by decide))))
    _ = s.pwmCtrl &&& 0xFFFFFF8F := mergeField_zero maskChEn _

theorem SeqStopEnds.pwmPeriod : t.pwmPeriod = s.pwmPeriod := by
  rw [State.pwmPeriod, ht.params]
  calc readWord t.mem (addrPwmPeriod s)
    _ = readWord (updatedMem s .pinLow (updatedMem s .pinGpio s.mem)) (addrPwmPeriod s) :=
      ht.readWord_of_apart hm (addrPwmPeriod_apart hl .disable).symm
    _ = readWord (updatedMem s .pinGpio s.mem) (addrPwmPeriod s) :=
      readWord_updatedMem_other s .pinLow (updatedMem_wf s .pinGpio hm) (addrPwmPeriod_apart hl .pinLow).symm
    _ = s.pwmPeriod := readWord_updatedMem_other s .pinGpio hm (addrPwmPeriod_apart hl .pinGpio).symm

end SeqStop

/-! ### `RUN` twice, and `RUN` then `STOP` -/

/-- Where its words stand already, `SeqRun` changes no memory (R105 (a)). -/
theorem SeqRunEnds.mem_eq_self {s t : State} {cfg ctrl : Word} (ht : SeqRunEnds s t) (hm : Memory.wf s.mem)
    (hcfg : s.pinCfg = pinPwmWord cfg) (hctrl : s.pwmCtrl = ctrl ||| 0x00000070)
    (hper : s.pwmPeriod = pack s.periodTicks (latchDuty s).dutyTicks) : t.mem = s.mem := by
  have hpin : updatedMem s .pinPwm s.mem = s.mem := updatedMem_eq_self hm hcfg
  have hen : updatedMem s .enable s.mem = s.mem :=
    updatedMem_eq_self hm (hctrl.trans (mergeField_ones maskChEn ctrl).symm)
  rw [ht.mem, hpin, hen, periodMem, ← hper]
  exact writeWord_readWord hm _

/-- A second `RUN p` computes the duty that the first one computed (R97). -/
theorem SeqRunEnds.latchDuty_again {p : Nat} {s t : State} (ht : SeqRunEnds (runHead p s) t) :
    (latchDuty (runHead p t)).dutyTicks = t.dutyTicks := by
  obtain ⟨-, -, hperiod⟩ := ht.timing
  rw [ht.dutyTicks]
  simp [hperiod]

/-- Settles O30: the second `RUN` finds the words of the first in place. -/
theorem runIdempotent : Obligations.RunIdempotent := by
  intro p s hp hc hf hm hl ha
  obtain ⟨t, ht, hrun⟩ := exec_run_ends hp hc hf fun k hk => ha k (by omega)
  have hc' : t.configured = true := hrun.configured.trans hc
  have hf' : t.faulted = false := hrun.faulted.trans hf
  obtain ⟨u, hu, hagain⟩ := exec_run_ends hp hc' hf' fun k hk => (hrun.answer k).trans (ha (k + 9) (by omega))
  have hper : t.pwmPeriod = pack t.periodTicks (latchDuty (runHead p t)).dutyTicks := by
    obtain ⟨-, -, hperiod⟩ := hrun.timing
    rw [hrun.pwmPeriod hm, hrun.latchDuty_again, hperiod]
  refine ⟨t, u, ht, hu, ?mem, hagain.timing, ⟨?ticks, ?pct⟩, ⟨?running, hagain.configured, hagain.faulted⟩,
    hrun.isRunning⟩
  case mem => exact hagain.mem_eq_self (hrun.memory hm) (hrun.pinCfg hm hl) (hrun.pwmCtrl hm hl) hper
  case ticks => exact hagain.dutyTicks.trans hrun.latchDuty_again
  case pct => exact hagain.dutyPct.trans hrun.dutyPct.symm
  case running => exact hagain.isRunning.trans hrun.isRunning.symm

theorem MemorySameOutside.mono {ws ws' : List Nat} {s t : State} (h : MemorySameOutside ws s t) (hsub : ws ⊆ ws') :
    MemorySameOutside ws' s t :=
  fun a ha => h a fun w hw => ha w (hsub hw)

theorem MemorySameOutside.trans {ws : List Nat} {s t u : State} (hst : MemorySameOutside ws s t)
    (htu : MemorySameOutside ws t u) : MemorySameOutside ws s u :=
  fun a ha => (htu a ha).trans (hst a ha)

theorem pinPwmWord_eq (x : Word) : pinPwmWord x = mergeField maskPinFunc (pwmFuncCode.zeroExtend 32 <<< 20) x := rfl

theorem pinGpioWord_eq (code : BitVec 3) (x : Word) :
    pinGpioWord code x = mergeField maskPinFunc (code.zeroExtend 32 <<< 20) x := rfl

/-- The GPIO code in `PIN_FUNC` replaces the PWM code (R95, R98). -/
theorem pinGpioWord_pinPwmWord (code : BitVec 3) (x : Word) : pinGpioWord code (pinPwmWord x) = pinGpioWord code x := by
  rw [pinPwmWord_eq, pinGpioWord_eq, pinGpioWord_eq, mergeField_overwrites _ x (pinFunc_in_field pwmFuncCode)]

/-- `CH_EN` set and then cleared is `CH_EN` cleared (R96, R100). -/
theorem disable_enable_word (x : Word) : (x ||| 0x00000070) &&& 0xFFFFFF8F = x &&& 0xFFFFFF8F := by
  have h := mergeField_overwrites 0 x (BitVec.and_not_self maskChEn)
  rwa [mergeField_ones, mergeField_zero, mergeField_zero] at h

/-- Settles O31: `SeqStop` undoes the fields that `SeqRun` set and leaves `PWM_PERIOD`. -/
theorem runThenStop : Obligations.RunThenStop := by
  intro p s hp hc hf hm hl ha
  obtain ⟨t, ht, hrun⟩ := exec_run_ends hp hc hf fun k hk => ha k (by omega)
  have hc' : t.configured = true := hrun.configured.trans hc
  have hf' : t.faulted = false := hrun.faulted.trans hf
  obtain ⟨u, hu, hstop⟩ := exec_stop_ends hc' hf' fun k hk => (hrun.answer k).trans (ha (k + 9) (by omega))
  have hparams : t.params = s.params := hrun.params
  have hm' := hrun.memory hm
  have hl' : t.params.Legal := hparams ▸ hl
  refine ⟨t, u, ht, hu, hstop.isRunning, ?ctrl, ?period, ?cfg, ?dat, ?bytes⟩
  case ctrl => rw [hstop.pwmCtrl hm' hl', hrun.pwmCtrl hm hl, disable_enable_word]; rfl
  case period => exact (hstop.pwmPeriod hm' hl').trans (hrun.pwmPeriod hm)
  case cfg => rw [hstop.pinCfg hm' hl', hrun.pinCfg hm hl, pinGpioWord_pinPwmWord, hparams]; rfl
  case dat => rw [hstop.pinDat hm' hl', hrun.pinDat hm hl]; rfl
  case bytes =>
    have hst : MemorySameOutside [addrPinCfg s, addrPwmCtrl s, addrPwmPeriod s] s t := hrun.bytes hm
    have htu := hstop.bytes hm'
    simp only [addrPinCfg, addrPinDat, addrPwmCtrl, hparams] at htu
    exact (hst.mono (by simp)).trans (htu.mono (by simp))

end Sys2Proof.Machine

namespace Sys2Proof.Machine

/-! ### The bits outside the five fields -/

/-- What a command can be: refused at once, or admitted and run (R110). -/
theorem exec_cases {i : Instr} {s t : State} (h : exec i s = .next t) :
    (∃ e, t = refuse e (accept (encode i) s)) ∨
      t = runOps (program i s.isRunning) (commandHead i (accept (encode i) s)) := by
  rw [exec_eq_execute] at h
  by_cases hadm : admission (.ok i) s = .eOk
  · rw [execute_admitted i _ s hadm] at h
    cases h; exact .inr rfl
  · rw [execute_refused i _ s hadm] at h
    cases h; exact .inl ⟨_, rfl⟩

/-- The bits of an update's register that belong to no field (R20, R22, R23, R93). -/
def bitsOutsideFields : Update → Word
  | .prescal => 0xFFFFFF80
  | .pinPwm => 0xFF8FFFFF
  | .enable => 0xFFFFFF80
  | .pinGpio => 0xFF8FFFFF
  | .pinLow => 0xFFFFFFDF
  | .disable => 0xFFFFFF80

/-- The register an update works on (R93). -/
abbrev updateRegister (u : Update) : Window × Nat := (updateWindow u, updateOffset u)

/-- No update of a register has any of those bits in its field. -/
theorem updateMask_and_bitsOutsideFields {u v : Update} (h : updateRegister v = updateRegister u) :
    updateMask v &&& bitsOutsideFields u = 0 := by
  revert h; cases u <;> cases v <;> decide

/-- The register whose word `tmp` holds after a port operation, where it held that of `r` before (R91). -/
def tmpAfter (r : Option (Window × Nat)) (op : MicroOp) : Option (Window × Nat) :=
  match op.port with
  | .rd w off => some (w, off)
  | .acquire _ | .release _ | .wrField _ | .wrPeriod => r

/-- Every `Wr` of an update finds in `tmp` a word of its register (R91). -/
def readsFirst : Option (Window × Nat) → List MicroOp → Bool
  | _, [] => true
  | r, op :: ops =>
    (match op.port with
      | .wrField u => r == some (updateRegister u)
      | .acquire _ | .release _ | .rd _ _ | .wrPeriod => true) && readsFirst (tmpAfter r op) ops

theorem readsFirst_program (i : Instr) (r : Bool) : readsFirst none (program i r) = true := by
  cases i <;> cases r <;> rfl

/-- `t` comes after `s` with the bits outside the fields as they were in the register of `u`, and in `tmp` too if `r`
says that it holds a word of that register. -/
structure BitsKept (u : Update) (s : State) (r : Option (Window × Nat)) (t : State) : Prop where
  memory : Memory.wf t.mem
  params : t.params = s.params
  coming : ∀ x ∈ t.coming, x ∈ s.coming
  word : readWord t.mem (updateAddr s u) &&& bitsOutsideFields u =
    readWord s.mem (updateAddr s u) &&& bitsOutsideFields u
  tmp : r = some (updateRegister u) →
    t.tmp &&& bitsOutsideFields u = readWord s.mem (updateAddr s u) &&& bitsOutsideFields u

theorem readWord_writeBytes_outside {m : Memory} {cells : List Host.Cell} {a : Nat} (h : Memory.wf m)
    (hc : ∀ c ∈ cells, ¬ InWord c.1 a) : readWord (writeBytes m cells) a = readWord m a := by
  have hbyte (x : Nat) (hx : InWord x a) : readByte (writeBytes m cells) x = readByte m x :=
    readByte_writeBytes_outside m cells h x fun c hcm he => hc c hcm (he ▸ hx)
  rw [readWord, hbyte (a + 3) (by omega), hbyte (a + 2) (by omega), hbyte (a + 1) (by omega), hbyte a (by omega),
    readWord]

theorem updateAddr_congr {s t : State} (h : t.params = s.params) (u : Update) : updateAddr t u = updateAddr s u := by
  rw [updateAddr, updateAddr, h]

section BitsKept

variable {u : Update} {s t : State} {r : Option (Window × Nat)}

theorem BitsKept.dropAnswer (h : BitsKept u s r t) : BitsKept u s r (dropAnswer t) :=
  { h with coming := fun x hx => h.coming x ((byteKept_dropAnswer 0 h.memory).coming x hx) }

/-- Writes of other agents that spare the register. -/
theorem BitsKept.envWrites {cells : List Host.Cell} (h : BitsKept u s r t)
    (hc : ∀ c ∈ cells, ¬ InWord c.1 (updateAddr s u)) : BitsKept u s r (envWrites cells t) :=
  { h with
    memory := writeBytes_wf _ _ h.memory
    word := by rw [envWrites_mem, readWord_writeBytes_outside h.memory hc]; exact h.word }

/-- A `Wr` elsewhere. -/
theorem BitsKept.portWr_other {w : Window} {off : Nat} (v : Word) (h : BitsKept u s r t)
    (ha : Apart (portAddr t.params w off) (updateAddr s u)) : BitsKept u s r (portWr w off v t) :=
  { h with
    memory := writeWord_wf _ _ _ h.memory
    word := by rw [portWr_mem, readWord_writeWord_other _ _ _ _ h.memory ha]; exact h.word }

/-- The `Wr` of an update, after the `Rd` of its register. -/
theorem BitsKept.wrField {v : Update} (hl : s.params.Legal) (h : BitsKept u s r t)
    (hr : r = some (updateRegister v)) : BitsKept u s r (perform (.wrField v) t) := by
  have haddr := updateAddr_congr h.params
  by_cases hreg : updateRegister v = updateRegister u
  · obtain ⟨hwindow, hoffset⟩ := Prod.mk.inj hreg
    have hsame : portAddr t.params (updateWindow v) (updateOffset v) = updateAddr s u := by
      rw [← haddr u, updateAddr, hwindow, hoffset]
    refine { h with memory := writeWord_wf _ _ _ h.memory, word := ?_ }
    rw [perform_wrField, portWr_mem, hsame, readWord_writeWord_same _ _ _ h.memory,
      mergeField_and _ (updateValue_in_field t v) (updateMask_and_bitsOutsideFields hreg)]
    exact h.tmp (hreg ▸ hr)
  · exact h.portWr_other _ (haddr u ▸ updateAddr_apart (h.params ▸ hl) hreg)

/-- A completed port operation, with the word an update writes read before. -/
theorem BitsKept.perform {op : MicroOp} (hl : s.params.Legal) (h : BitsKept u s r t)
    (hr : ∀ v, op.port = .wrField v → r = some (updateRegister v)) :
    BitsKept u s (tmpAfter r op) (perform op.port t) := by
  rcases op with ⟨p, a⟩
  cases p with
  | acquire w | release w => exact { h with }
  | rd w off =>
    refine { h with tmp := fun he => ?_ }
    obtain ⟨rfl, rfl⟩ := Prod.ext_iff.1 (Option.some.inj he)
    rw [perform_rd, portRd_tmp, h.params]
    exact h.word
  | wrField v => exact h.wrField hl (hr v rfl)
  | wrPeriod => exact h.portWr_other _ (updateAddr_congr h.params u ▸ addrPwmPeriod_apart (h.params ▸ hl) u)

/-- The register lines below it touch none of this. -/
theorem BitsKept.applyAfter (a : After) (h : BitsKept u s r t) : BitsKept u s r (applyAfter a (countStep t)) := by
  cases a <;> exact { h with }

end BitsKept

/-- The register of an update is one of the target registers (R37, R93). -/
theorem inTargets_of_inWord_updateAddr {s : State} {u : Update} {a : Nat} (h : InWord a (updateAddr s u)) :
    InTargets s a := by
  cases u with
  | prescal | enable | disable => exact .inl h
  | pinPwm | pinGpio => exact .inr (.inr (.inl h))
  | pinLow => exact .inr (.inr (.inr h))

/-- A run through port operations in which every update reads before it writes keeps the bits outside the fields,
however it ends (R90, R92 (a)). -/
theorem bitsKept_runOps {u : Update} {s t : State} {ops : List MicroOp} (hl : s.params.Legal) (hplain : PlainStore s)
    (hothers : NoTargetWrites s) (h : BitsKept u s none t) (hops : readsFirst none ops = true) :
    ∃ r, BitsKept u s r (runOps ops t) := by
  have advances {r op ops t} (hk : BitsKept u s r t) (hr : readsFirst r (op :: ops) = true) :
      ∃ r', BitsKept u s r' (advance op t) ∧ readsFirst r' ops = true := by
    rw [readsFirst, Bool.and_eq_true] at hr
    obtain ⟨hread, hrest⟩ := hr
    refine ⟨_, (hk.perform (op := op) hl fun v hv => ?_).applyAfter op.after, hrest⟩
    simpa [hv] using hread
  refine runOps_induct (fun ops t => ∃ r, BitsKept u s r t ∧ readsFirst r ops = true)
    (fun t => ∃ r, BitsKept u s r t) ?done ?wait ?fail ?next ?after ?reads ops t ⟨none, h, hops⟩
  case done => exact fun t ⟨r, hk, _⟩ => ⟨r, { hk with }⟩
  case wait => exact fun _ _ t ⟨r, hk, _⟩ _ => ⟨r, hk.dropAnswer⟩
  case fail => exact fun _ _ t ⟨r, hk, _⟩ _ => ⟨r, { hk.dropAnswer with }⟩
  case next => exact fun _ _ t ⟨r, hk, hr⟩ _ => advances hk.dropAnswer hr
  case after =>
    intro op _ t cells ⟨r, hk, hr⟩ hreply
    have hcoming : Answer.after cells ∈ s.coming :=
      hk.coming _ (portReply_after _ _ _ hreply ▸ nextAnswer_mem_coming t)
    exact advances (hk.dropAnswer.envWrites fun c hc hin =>
      hothers _ hcoming c hc (inTargets_of_inWord_updateAddr hin)) hr
  case reads =>
    intro op _ t v fx ⟨r, hk, _⟩ hreply
    obtain ⟨hnext, -⟩ := portReply_reads _ _ _ _ hreply
    exact absurd rfl (hplain _ (hk.coming _ (hnext ▸ nextAnswer_mem_coming t)) v fx)

/-- The beginning of a command touches no memory. -/
theorem byteKept_head (a : Nat) (i : Instr) {s : State} (h : Memory.wf s.mem) :
    ByteKept a s (commandHead i (accept (encode i) s)) := by
  obtain ⟨hparams, -, hrest⟩ := commandHead_outside i (accept (encode i) s)
  exact ⟨by simpa using h, hparams, by simp [hrest], by simp⟩

/-- No command changes a bit outside the fields in the register of an update, under the premises of R175. -/
theorem exec_keeps_bitsOutsideFields (u : Update) {i : Instr} {s t : State} (hm : Memory.wf s.mem)
    (hl : s.params.Legal) (h : exec i s = .next t) (hplain : PlainStore s) (hothers : NoTargetWrites s) :
    readWord t.mem (updateAddr t u) &&& bitsOutsideFields u =
      readWord s.mem (updateAddr s u) &&& bitsOutsideFields u := by
  rcases exec_cases h with ⟨e, rfl⟩ | rfl
  · rfl
  · have hhead : BitsKept u s none (commandHead i (accept (encode i) s)) :=
      { byteKept_head 0 i hm with word := by simp, tmp := nofun }
    obtain ⟨r, hk⟩ := bitsKept_runOps hl hplain hothers hhead (readsFirst_program i s.isRunning)
    rw [updateAddr_congr hk.params]
    exact hk.word

/-- No command changes a byte outside the target registers that no coming answer changes. -/
theorem byteKept_exec {a : Nat} {i : Instr} {s t : State} (hm : Memory.wf s.mem) (h : exec i s = .next t)
    (ha : ¬ InTargets s a) (ho : ¬ ChangedByOthers s a) : ByteKept a s t := by
  rcases exec_cases h with ⟨e, rfl⟩ | rfl
  · exact ⟨hm, rfl, fun _ hx => hx, rfl⟩
  · have hhead := byteKept_head a i hm
    exact hhead.trans (byteKept_runOps _ hhead.memory (hhead.not_inTargets ha) (hhead.not_changedByOthers ho))

/-- Settles O33: register by register for the shared words, and byte by byte elsewhere. -/
theorem bitsOutsideFieldsKept : Obligations.BitsOutsideFieldsKept := fun _ _ _ hm hl h =>
  ⟨fun hplain hothers =>
    ⟨exec_keeps_bitsOutsideFields .enable hm hl h hplain hothers,
      exec_keeps_bitsOutsideFields .pinPwm hm hl h hplain hothers,
      exec_keeps_bitsOutsideFields .pinLow hm hl h hplain hothers⟩,
    fun _ ha ho => (byteKept_exec hm h ha ho).byte⟩

end Sys2Proof.Machine

namespace Sys2Proof.Machine

/-! ### Answered port operations: what they leave alone -/

theorem advanceAll_append (xs ys : List MicroOp) (s : State) :
    advanceAll (xs ++ ys) s = advanceAll ys (advanceAll xs s) := List.foldl_append

theorem SameOutside.trans {s t u : State} (hst : SameOutside s t) (htu : SameOutside t u) : SameOutside s u := by
  obtain ⟨hp, hi, hr⟩ := hst
  obtain ⟨hp', hi', hr'⟩ := htu
  exact ⟨hp'.trans hp, hi'.trans hi, hr'.trans hr⟩

theorem SameTiming.trans {s t u : State} (hst : SameTiming s t) (htu : SameTiming t u) : SameTiming s u := by
  obtain ⟨hf, hc, hp⟩ := hst
  obtain ⟨hf', hc', hp'⟩ := htu
  exact ⟨hf'.trans hf, hc'.trans hc, hp'.trans hp⟩

/-- What answered port operations do to the fields they do not work on: which of the registers they leave alone depends
on the lines that stand below them (R97, R103, R104, R113). -/
structure OpsFrame (ops : List MicroOp) (s t : State) : Prop where
  outside : SameOutside s t
  answers : t.answers = s.answers.drop ops.length
  held : t.held = ops.foldl heldAfter s.held
  timing : SameTiming s t
  dutyPct : t.dutyPct = s.dutyPct
  faulted : t.faulted = s.faulted
  dutyTicks : (∀ op ∈ ops, op.after ≠ .latchDuty) → t.dutyTicks = s.dutyTicks
  isRunning : (∀ op ∈ ops, op.after ≠ .setRunning ∧ op.after ≠ .clearRunning) → t.isRunning = s.isRunning
  configured : (∀ op ∈ ops, op.after ≠ .setConfigured) → t.configured = s.configured

theorem opsFrame_nil (s : State) : OpsFrame [] s s :=
  ⟨⟨rfl, rfl, rfl⟩, rfl, rfl, ⟨rfl, rfl, rfl⟩, rfl, rfl, fun _ => rfl, fun _ => rfl, fun _ => rfl⟩

theorem opsFrame_singleton (op : MicroOp) (s : State) : OpsFrame [op] s (advance op (dropAnswer s)) := by
  obtain ⟨m, v, events, -, hu⟩ := portDone_perform op s
  rw [advance_eq, hu]
  constructor
  case outside => cases op.after <;> exact ⟨rfl, rfl, rfl⟩
  case timing => cases op.after <;> exact ⟨rfl, rfl, rfl⟩
  case answers | held | dutyPct | faulted => simp
  case dutyTicks => cases h : op.after <;> simp [h]
  case isRunning => cases h : op.after <;> simp [h]
  case configured => cases h : op.after <;> simp [h]

theorem OpsFrame.append {xs ys : List MicroOp} {s t u : State} (hst : OpsFrame xs s t) (htu : OpsFrame ys t u) :
    OpsFrame (xs ++ ys) s u where
  outside := hst.outside.trans htu.outside
  answers := by rw [htu.answers, hst.answers, List.drop_drop, List.length_append]
  held := by rw [htu.held, hst.held, List.foldl_append]
  timing := hst.timing.trans htu.timing
  dutyPct := htu.dutyPct.trans hst.dutyPct
  faulted := htu.faulted.trans hst.faulted
  dutyTicks h := by
    obtain ⟨hx, hy⟩ := List.forall_mem_append.1 h
    exact (htu.dutyTicks hy).trans (hst.dutyTicks hx)
  isRunning h := by
    obtain ⟨hx, hy⟩ := List.forall_mem_append.1 h
    exact (htu.isRunning hy).trans (hst.isRunning hx)
  configured h := by
    obtain ⟨hx, hy⟩ := List.forall_mem_append.1 h
    exact (htu.configured hy).trans (hst.configured hx)

theorem opsFrame_advanceAll (ops : List MicroOp) (s : State) : OpsFrame ops s (advanceAll ops s) := by
  induction ops generalizing s with
  | nil => exact opsFrame_nil s
  | cons op ops ih => exact (opsFrame_singleton op s).append (ih _)

/-! ### The `RMW`s among answered port operations -/

/-- The memory after the `RMW`s of some updates, one after another (R91). -/
def updatesMem (s : State) (us : List Update) (m : Memory) : Memory := us.foldl (fun m u => updatedMem s u m) m

@[simp] theorem updatesMem_nil (s : State) (m : Memory) : updatesMem s [] m = m := rfl
@[simp] theorem updatesMem_cons (s : State) (u : Update) (us : List Update) (m : Memory) :
    updatesMem s (u :: us) m = updatesMem s us (updatedMem s u m) := rfl

theorem updatesMem_append (s : State) (us vs : List Update) (m : Memory) :
    updatesMem s (us ++ vs) m = updatesMem s vs (updatesMem s us m) := List.foldl_append

theorem updatesMem_wf (s : State) (us : List Update) {m : Memory} (h : Memory.wf m) :
    Memory.wf (updatesMem s us m) := by
  induction us generalizing m with
  | nil => exact h
  | cons u us ih => exact ih (updatedMem_wf s u h)

/-- `RMW`s leave a word alone that none of them works on. -/
theorem readWord_updatesMem_other {s : State} {us : List Update} {m : Memory} {b : Nat} (h : Memory.wf m)
    (hb : ∀ u ∈ us, Apart (updateAddr s u) b) : readWord (updatesMem s us m) b = readWord m b := by
  induction us generalizing m with
  | nil => rfl
  | cons u us ih =>
    obtain ⟨hu, hus⟩ := List.forall_mem_cons.1 hb
    exact (ih (updatedMem_wf s u h) hus).trans (readWord_updatedMem_other s u h hu)

/-- The word of a register that one `RMW` of several works on. -/
theorem readWord_updatesMem_same {s : State} {us vs : List Update} {u : Update} {m : Memory} (h : Memory.wf m)
    (hb : ∀ v ∈ us ++ vs, Apart (updateAddr s v) (updateAddr s u)) :
    readWord (updatesMem s (us ++ u :: vs) m) (updateAddr s u) = updatedWord s u (readWord m (updateAddr s u)) := by
  obtain ⟨hus, hvs⟩ := List.forall_mem_append.1 hb
  have hwf := updatesMem_wf s us h
  rw [updatesMem_append, updatesMem_cons, readWord_updatesMem_other (updatedMem_wf s u hwf) hvs,
    readWord_updatedMem_same s u hwf, readWord_updatesMem_other h hus]

/-- `RMW`s leave every byte alone outside the words they work on. -/
theorem readByte_updatesMem_outside {s : State} {us : List Update} {m : Memory} (h : Memory.wf m) {a : Nat}
    (ha : ∀ u ∈ us, ¬ InWord a (updateAddr s u)) : readByte (updatesMem s us m) a = readByte m a := by
  induction us generalizing m with
  | nil => rfl
  | cons u us ih =>
    obtain ⟨hu, hus⟩ := List.forall_mem_cons.1 ha
    exact (ih (updatedMem_wf s u h) hus).trans (readByte_updatedMem_outside s u h hu)

/-- `t` comes after `s` with the `RMW`s `us` done, and with what decides the words they write: the parameters and the
prescaler code. -/
structure UpdatesDone (us : List Update) (s t : State) : Prop where
  params : t.params = s.params
  prescalerCode : t.prescalerCode = s.prescalerCode
  mem : t.mem = updatesMem s us s.mem

theorem updateValue_congr {s t : State} (hp : t.params = s.params) (hc : t.prescalerCode = s.prescalerCode)
    (u : Update) : updateValue t u = updateValue s u := by
  cases u <;> simp [updateValue, hp, hc]

theorem UpdatesDone.updatedMem_eq {us : List Update} {s t : State} (h : UpdatesDone us s t) (u : Update) (m : Memory) :
    updatedMem t u m = updatedMem s u m := by
  simp only [updatedMem, updatedWord, updateAddr_congr h.params, updateValue_congr h.params h.prescalerCode]

theorem UpdatesDone.append {us vs : List Update} {s t u : State} (hst : UpdatesDone us s t) (htu : UpdatesDone vs t u) :
    UpdatesDone (us ++ vs) s u where
  params := htu.params.trans hst.params
  prescalerCode := htu.prescalerCode.trans hst.prescalerCode
  mem := by
    have hsame : (fun m u => updatedMem t u m) = fun m u => updatedMem s u m := by
      funext m u; exact hst.updatedMem_eq u m
    rw [htu.mem, hst.mem, updatesMem_append, updatesMem, hsame]; rfl

section UpdatesDone

variable {us vs : List Update} {u : Update} {s t : State} (hm : Memory.wf s.mem)
include hm

theorem UpdatesDone.memory (h : UpdatesDone us s t) : Memory.wf t.mem := h.mem ▸ updatesMem_wf s us hm

theorem UpdatesDone.readWord_same (h : UpdatesDone (us ++ u :: vs) s t)
    (hb : ∀ v ∈ us ++ vs, Apart (updateAddr s v) (updateAddr s u)) :
    readWord t.mem (updateAddr t u) = updatedWord s u (readWord s.mem (updateAddr s u)) := by
  rw [updateAddr_congr h.params, h.mem, readWord_updatesMem_same hm hb]

theorem UpdatesDone.readWord_other (h : UpdatesDone us s t)
    (hb : ∀ v ∈ us, Apart (updateAddr s v) (updateAddr s u)) :
    readWord t.mem (updateAddr t u) = readWord s.mem (updateAddr s u) := by
  rw [updateAddr_congr h.params, h.mem, readWord_updatesMem_other hm hb]

theorem UpdatesDone.bytes (h : UpdatesDone us s t) : MemorySameOutside (us.map (updateAddr s)) s t := fun a ha => by
  rw [h.mem]
  exact readByte_updatesMem_outside hm fun u hu => ha _ (List.mem_map_of_mem hu)

end UpdatesDone

/-- `PIN_CFG` and `PIN_DAT` are words of one window, so they lie apart whatever the bases are (R22, R23). -/
theorem pinCfg_apart_pinDat (s : State) : Apart (updateAddr s .pinGpio) (updateAddr s .pinLow) :=
  .inl (Nat.add_le_add_left (by decide : offPinCfg + 4 ≤ offPinDat) s.params.pinBase)

/-- The value an update writes does not come from what its answered `Rd` changes. -/
theorem updateValue_after_rd (u : Update) (w : Window) (off : Nat) (s : State) :
    updateValue (dropAnswer (countStep (portRd w off (dropAnswer s)))) u = updateValue s u := by
  cases u <;> rfl

/-- An answered `RMW` (R91). -/
theorem updatesDone_rmw (u : Update) (s : State) : UpdatesDone [u] s (advanceAll (rmw u .nothing) s) := by
  have hframe := opsFrame_advanceAll (rmw u .nothing) s
  obtain ⟨hparams, -, -⟩ := hframe.outside
  obtain ⟨-, hcode, -⟩ := hframe.timing
  refine ⟨hparams, hcode, ?_⟩
  simp [rmw, advance_eq, updateValue_after_rd, updatedMem, updatedWord, updateAddr]

/-- The port trace of the `RMW`s of some updates: each word read and each word written (R91, R44). -/
def updateEvents (s : State) : List Update → Memory → List TraceEvent
  | [], _ => []
  | u :: us, m =>
    .rd (updateWindow u) (updateOffset u) (readWord m (updateAddr s u)) ::
    .wr (updateWindow u) (updateOffset u) (updatedWord s u (readWord m (updateAddr s u))) ::
    updateEvents s us (updatedMem s u m)

theorem UpdatesDone.updateEvents_eq {us : List Update} {s t : State} (h : UpdatesDone us s t) (vs : List Update)
    (m : Memory) : updateEvents t vs m = updateEvents s vs m := by
  induction vs generalizing m with
  | nil => rfl
  | cons v vs ih =>
    simp only [updateEvents, updatedWord, h.updatedMem_eq, ih, updateAddr_congr h.params,
      updateValue_congr h.params h.prescalerCode]

theorem trace_rmw (u : Update) (s : State) :
    (advanceAll (rmw u .nothing) s).trace = s.trace ++ updateEvents s [u] s.mem := by
  simp [rmw, advance_eq, updateValue_after_rd, updateEvents, updatedWord, updateAddr]

/-- The port operations of some `RMW`s. -/
def rmws (us : List Update) : List MicroOp := us.flatMap (rmw · .nothing)

theorem advanceAll_rmws_cons (u : Update) (us : List Update) (s : State) :
    advanceAll (rmws (u :: us)) s = advanceAll (rmws us) (advanceAll (rmw u .nothing) s) := by
  rw [rmws, List.flatMap_cons, advanceAll_append]; rfl

theorem updatesDone_rmws (us : List Update) (s : State) : UpdatesDone us s (advanceAll (rmws us) s) := by
  induction us generalizing s with
  | nil => exact ⟨rfl, rfl, rfl⟩
  | cons u us ih => rw [advanceAll_rmws_cons]; exact (updatesDone_rmw u s).append (ih _)

theorem trace_rmws (us : List Update) (s : State) :
    (advanceAll (rmws us) s).trace = s.trace ++ updateEvents s us s.mem := by
  induction us generalizing s with
  | nil => simp [rmws, updateEvents]
  | cons u us ih =>
    have hu := updatesDone_rmw u s
    rw [advanceAll_rmws_cons, ih, hu.updateEvents_eq, hu.mem, trace_rmw]
    simp [updateEvents]

/-- An access group with nothing but `RMW`s in it (R101). -/
def updateGroup (w : Window) (us : List Update) : List MicroOp :=
  [⟨.acquire w, .nothing⟩] ++ rmws us ++ [⟨.release w, .nothing⟩]

theorem advanceAll_updateGroup (w : Window) (us : List Update) (s : State) :
    advanceAll (updateGroup w us) s =
      advance ⟨.release w, .nothing⟩
        (dropAnswer (advanceAll (rmws us) (advance ⟨.acquire w, .nothing⟩ (dropAnswer s)))) := by
  simp [updateGroup, advanceAll_append]

theorem updatesDone_updateGroup (w : Window) (us : List Update) (s : State) :
    UpdatesDone us s (advanceAll (updateGroup w us) s) := by
  have hacquire : UpdatesDone [] s (advance ⟨.acquire w, .nothing⟩ (dropAnswer s)) := ⟨rfl, rfl, rfl⟩
  obtain ⟨hparams, hcode, hmem⟩ := hacquire.append (updatesDone_rmws us _)
  rw [advanceAll_updateGroup]
  exact ⟨hparams, hcode, hmem⟩

theorem trace_updateGroup (w : Window) (us : List Update) (s : State) : (advanceAll (updateGroup w us) s).trace =
    s.trace ++ (.acquire w true :: updateEvents s us s.mem ++ [.release w]) := by
  have hacquire : UpdatesDone [] s (advance ⟨.acquire w, .nothing⟩ (dropAnswer s)) := ⟨rfl, rfl, rfl⟩
  rw [advanceAll_updateGroup]
  simpa [advance_eq, trace_rmws] using hacquire.updateEvents_eq us s.mem

/-! ### The three sequences by their access groups -/

/-- `SeqPrescaler` is one such group, with a register line below it (R102). -/
theorem advanceAll_seqPrescaler (a : After) (s : State) :
    advanceAll (seqPrescaler a) s = applyAfter a (advanceAll (updateGroup .pwm [.prescal]) s) := rfl

/-- The PWM group of `SeqRun` (R103). -/
def seqRunPwm : List MicroOp := seqRun.drop 4

theorem seqRun_eq : seqRun = updateGroup .pin [.pinPwm] ++ seqRunPwm := rfl

theorem advanceAll_seqStop (s : State) : advanceAll seqStop s =
    applyAfter .clearRunning (advanceAll (updateGroup .pin [.pinGpio, .pinLow] ++ updateGroup .pwm [.disable]) s) := rfl

theorem trace_seqPrescaler (s : State) : (advanceAll (updateGroup .pwm [.prescal]) s).trace =
    s.trace ++ tracePrescaler s.pwmCtrl (prescalWord s.prescalerCode s.pwmCtrl) :=
  trace_updateGroup .pwm [.prescal] s

theorem trace_seqRunPwm (s : State) : (advanceAll seqRunPwm s).trace = s.trace ++
    [.acquire .pwm true, .rd .pwm 0x400 s.pwmCtrl, .wr .pwm 0x400 (s.pwmCtrl ||| 0x00000070),
     .wr .pwm 0x404 (pack s.periodTicks (latchDuty s).dutyTicks), .release .pwm] := by
  have hword : s.pwmCtrl ||| 0x00000070 = mergeField maskChEn 0x00000070 s.pwmCtrl :=
    (mergeField_ones maskChEn s.pwmCtrl).symm
  rw [hword]
  simp [seqRunPwm, seqRun, rmw, advance_eq, updateMask, updateValue, updateWindow, updateOffset, State.pwmCtrl,
    offPwmCtrl, offPwmPeriod]

theorem trace_seqRun {s : State} (hm : Memory.wf s.mem) (hl : s.params.Legal) :
    (advanceAll seqRun s).trace = s.trace ++ traceRun s.pinCfg (pinPwmWord s.pinCfg) s.pwmCtrl
      (s.pwmCtrl ||| 0x00000070) (pack s.periodTicks (latchDuty s).dutyTicks) := by
  have hpin := updatesDone_updateGroup .pin [.pinPwm] s
  have hframe := opsFrame_advanceAll (updateGroup .pin [.pinPwm]) s
  have hctrl : (advanceAll (updateGroup .pin [.pinPwm]) s).pwmCtrl = s.pwmCtrl :=
    hpin.readWord_other (u := .enable) hm (by simpa using updateAddr_apart hl (by decide))
  obtain ⟨-, -, hperiod⟩ := hframe.timing
  rw [seqRun_eq, advanceAll_append, trace_seqRunPwm, trace_updateGroup, hctrl, latchDuty_dutyTicks, hperiod,
    hframe.dutyPct, List.append_assoc]
  rfl

theorem updateEvents_disable (s : State) : updateEvents s [.disable] s.mem =
    [.rd .pwm 0x400 s.pwmCtrl, .wr .pwm 0x400 (s.pwmCtrl &&& 0xFFFFFF8F)] := by
  have hword : mergeField maskChEn 0 s.pwmCtrl = s.pwmCtrl &&& 0xFFFFFF8F := mergeField_zero maskChEn s.pwmCtrl
  rw [← hword]
  rfl

theorem updateEvents_pinGpio_pinLow {s : State} (hm : Memory.wf s.mem) :
    updateEvents s [.pinGpio, .pinLow] s.mem =
      [.rd .pin 0x800 s.pinCfg, .wr .pin 0x800 (pinGpioWord s.params.gpioOutCode s.pinCfg),
       .rd .pin 0x810 s.pinDat, .wr .pin 0x810 (s.pinDat &&& 0xFFFFFFDF)] := by
  have hdat : readWord (updatedMem s .pinGpio s.mem) (updateAddr s .pinLow) = s.pinDat :=
    readWord_updatedMem_other s .pinGpio hm (pinCfg_apart_pinDat s)
  have hword : mergeField maskPinOut 0 s.pinDat = s.pinDat &&& 0xFFFFFFDF := mergeField_zero maskPinOut s.pinDat
  rw [← hword, updateEvents, updateEvents, hdat]
  rfl

theorem trace_seqStop {s : State} (hm : Memory.wf s.mem) (hl : s.params.Legal) :
    (advanceAll seqStop s).trace = s.trace ++ traceStop s.pinCfg (pinGpioWord s.params.gpioOutCode s.pinCfg) s.pinDat
      (s.pinDat &&& 0xFFFFFFDF) s.pwmCtrl (s.pwmCtrl &&& 0xFFFFFF8F) := by
  have hpin := updatesDone_updateGroup .pin [.pinGpio, .pinLow] s
  have hctrl : (advanceAll (updateGroup .pin [.pinGpio, .pinLow]) s).pwmCtrl = s.pwmCtrl :=
    hpin.readWord_other (u := .disable) hm (by
      simpa using ⟨updateAddr_apart hl (by decide), updateAddr_apart hl (by decide)⟩)
  rw [advanceAll_seqStop, advanceAll_append, applyAfter_trace, trace_updateGroup, trace_updateGroup,
    updateEvents_disable, hctrl, updateEvents_pinGpio_pinLow hm, List.append_assoc]
  rfl

end Sys2Proof.Machine

namespace Sys2Proof.Machine

/-! ### Values that reach their registers whole -/

theorem toNat_ofNat_freq {f : Nat} (h : f ≤ maxFreq) : (BitVec.ofNat 28 f).toNat = f :=
  (BitVec.toNat_ofNat _ _).trans (Nat.mod_eq_of_lt (h.trans_lt (by decide)))

theorem toNat_ofNat_pct {p : Nat} (h : p ≤ 100) : (BitVec.ofNat 7 p).toNat = p :=
  (BitVec.toNat_ofNat _ _).trans (Nat.mod_eq_of_lt (by omega))

theorem toNat_ofNat_period {f : Nat} (h1 : 1 ≤ f) (h2 : f ≤ maxFreq) :
    (BitVec.ofNat 16 (select f).period).toNat = (select f).period := by
  obtain ⟨-, -, hmax⟩ := select_spec h1 h2
  exact (BitVec.toNat_ofNat _ _).trans (Nat.mod_eq_of_lt (hmax.trans_lt (by decide)))

/-- The recompute of `duty_ticks` at a percentage from an operand (R77, R97, R123). -/
theorem toNat_latchDuty_of_pct {p : Nat} {s : State} (hp : p ≤ 100) (hpct : s.dutyPct.toNat = p) :
    (latchDuty s).dutyTicks.toNat = s.periodTicks.toNat * p / 100 := by
  obtain ⟨heq, -⟩ := dutyOk_latchDuty (hpct.trans_le hp)
  rwa [← hpct]

/-- The recompute of `duty_ticks` at the period of a legal frequency, whatever the percentage is (R126): the product of
a period of at most 23976 and a percentage of 7 bits fits. -/
theorem toNat_latchDuty_of_period {f : Nat} {s : State} (h1 : 1 ≤ f) (h2 : f ≤ maxFreq)
    (hper : s.periodTicks = BitVec.ofNat 16 (select f).period) :
    (latchDuty s).dutyTicks.toNat = (select f).period * s.dutyPct.toNat / 100 := by
  obtain ⟨-, -, hmax⟩ := select_spec h1 h2
  have hmul : (select f).period * s.dutyPct.toNat ≤ 23976 * 127 :=
    Nat.mul_le_mul hmax (Nat.le_of_lt_succ s.dutyPct.isLt)
  rw [latchDuty_dutyTicks, hper, toNat_ofNat_period h1 h2, dutyTicksOf, BitVec.toNat_ofNat]
  exact Nat.mod_eq_of_lt (by omega)

/-! ### An admitted command whose port operations are all answered -/

/-- The state in which an admitted command issues its first port operation: accepted, with the register lines at the head
of its body done (R110). -/
def startedState (i : Instr) (s : State) : State := commandHead i (accept (encode i) s)

/-- The state an admitted command ends in when all its port operations are answered (R110). -/
def completedState (i : Instr) (s : State) : State :=
  complete (advanceAll (program i s.isRunning) (startedState i s))

theorem startedState_outside (i : Instr) (s : State) : SameOutside s (startedState i s) := commandHead_outside i _

@[simp] theorem startedState_mem (i : Instr) (s : State) : (startedState i s).mem = s.mem := by simp [startedState]
@[simp] theorem startedState_trace (i : Instr) (s : State) : (startedState i s).trace = s.trace := by
  simp [startedState]
@[simp] theorem startedState_faulted (i : Instr) (s : State) : (startedState i s).faulted = s.faulted := by
  simp [startedState]
@[simp] theorem startedState_configured (i : Instr) (s : State) : (startedState i s).configured = s.configured := by
  simp [startedState]
@[simp] theorem startedState_params (i : Instr) (s : State) : (startedState i s).params = s.params :=
  (startedState_outside i s).1

@[simp] theorem startedState_pwmCtrl (i : Instr) (s : State) : (startedState i s).pwmCtrl = s.pwmCtrl := by
  simp [State.pwmCtrl]
@[simp] theorem startedState_pinCfg (i : Instr) (s : State) : (startedState i s).pinCfg = s.pinCfg := by
  simp [State.pinCfg]
theorem updateAddr_startedState (i : Instr) (s : State) : updateAddr (startedState i s) = updateAddr s :=
  funext (updateAddr_congr (startedState_params i s))

theorem memorySameOutside_startedState {ws : List Nat} {i : Instr} {s t : State} :
    MemorySameOutside ws (startedState i s) t ↔ MemorySameOutside ws s t := by
  simp [MemorySameOutside]

theorem startedState_answer (i : Instr) (s : State) (k : Nat) : (startedState i s).answer k = s.answer k := by
  obtain ⟨-, -, hrest⟩ := startedState_outside i s
  rw [State.answer, State.answer, hrest]
  simp [startedState]

theorem exec_of_answersOk {i : Instr} {s : State} (hadm : Admitted i s)
    (ha : AnswersOk (program i s.isRunning).length s) : exec i s = .next (completedState i s) := by
  have ha' : AnswersOk (program i s.isRunning).length (startedState i s) :=
    fun k hk => (startedState_answer i s k).trans (ha k hk)
  rw [exec_eq_execute, execute_admitted i _ s hadm, completedState, ← runOps_of_answersOk _ _ ha']
  rfl

/-- A command with any port operation releases what it acquires, whatever was held before (R101). -/
theorem foldl_heldAfter_of_ne_nil {i : Instr} {r : Bool} (h : Option Window) (hne : program i r ≠ []) :
    (program i r).foldl heldAfter h = none := by
  cases i with
  | init f | cfgps | run p | stop => rfl
  | reset f => cases r <;> rfl
  | setduty p =>
    cases r with
    | true => rfl
    | false => exact absurd rfl hne

theorem completedState_ended {i : Instr} {s : State} (hne : program i s.isRunning ≠ []) :
    EndedWith .eOk (completedState i s) := by
  refine ⟨rfl, rfl, ?_⟩
  rw [completedState, complete_held, (opsFrame_advanceAll _ _).held, foldl_heldAfter_of_ne_nil _ hne]

theorem completedState_outside (i : Instr) (s : State) : SameOutside s (completedState i s) :=
  (startedState_outside i s).trans (opsFrame_advanceAll (program i s.isRunning) (startedState i s)).outside

theorem completedState_answers (i : Instr) (s : State) :
    (completedState i s).answers = s.answers.drop (program i s.isRunning).length := by
  rw [completedState, complete_answers, (opsFrame_advanceAll _ _).answers, startedState, commandHead_answers,
    accept_answers]

theorem completedState_answer (i : Instr) (s : State) (k : Nat) :
    (completedState i s).answer k = s.answer (k + (program i s.isRunning).length) :=
  (advanceAll_answer _ (startedState i s) k).trans (startedState_answer i s _)

/-- Settles O19: each list written out. -/
theorem portOperationCounts : Obligations.PortOperationCounts := fun _ _ _ =>
  ⟨rfl, rfl, rfl, rfl, rfl, rfl, rfl, rfl⟩

theorem admitted_init {f : Nat} {s : State} (h1 : 1 ≤ f) (h2 : f ≤ maxFreq) (hc : s.configured = false)
    (hf : s.faulted = false) : Admitted (.init f) s :=
  (admitted_iff _ _).2 ⟨hf, by simp [stateAdmits, hc], (freqLegal_iff f).2 ⟨h1, h2⟩⟩

/-- A configured, unfaulted block admits every command but `INIT` whose operand is legal (R143). -/
theorem admitted_of_configured {i : Instr} {s : State} (hi : ∀ f, i ≠ .init f) (hop : operandLegal i = true)
    (hc : s.configured = true) (hf : s.faulted = false) : Admitted i s := by
  refine (admitted_iff _ _).2 ⟨hf, ?_, hop⟩
  cases i with
  | init f => exact absurd rfl (hi f)
  | cfgps | run p | stop | setduty p | reset f => exact hc

theorem admitted_cfgps {s : State} (hc : s.configured = true) (hf : s.faulted = false) : Admitted .cfgps s :=
  admitted_of_configured nofun rfl hc hf

theorem admitted_run {p : Nat} {s : State} (hp : p ≤ 100) (hc : s.configured = true) (hf : s.faulted = false) :
    Admitted (.run p) s :=
  admitted_of_configured nofun (decide_eq_true hp) hc hf

theorem admitted_stop {s : State} (hc : s.configured = true) (hf : s.faulted = false) : Admitted .stop s :=
  admitted_of_configured nofun rfl hc hf

theorem admitted_setduty {p : Nat} {s : State} (hp : p ≤ 100) (hc : s.configured = true) (hf : s.faulted = false) :
    Admitted (.setduty p) s :=
  admitted_of_configured nofun (decide_eq_true hp) hc hf

theorem admitted_reset {f : Nat} {s : State} (h1 : 1 ≤ f) (h2 : f ≤ maxFreq) (hc : s.configured = true)
    (hf : s.faulted = false) : Admitted (.reset f) s :=
  admitted_of_configured nofun ((freqLegal_iff f).2 ⟨h1, h2⟩) hc hf

/-! ### `INIT`, `CFGPS`, and `RESET` while Stopped -/

/-- The word of R94 in `PWM_CTRL`, after `U_PRESCAL` alone. -/
theorem UpdatesDone.prescal_word {s t : State} (h : UpdatesDone [.prescal] s t) (hm : Memory.wf s.mem) :
    t.pwmCtrl = prescalWord s.prescalerCode s.pwmCtrl :=
  calc t.pwmCtrl
    _ = updatedWord s .prescal s.pwmCtrl := h.readWord_same (us := []) (u := .prescal) (vs := []) hm (by simp)
    _ = prescalWord s.prescalerCode s.pwmCtrl := rfl

/-- What a command leaves whose port operations are one `SeqPrescaler`, with the register line `a` below it (R102). -/
structure SeqPrescalerEnds (i : Instr) (a : After) (s t : State) : Prop where
  timing : SameTiming (startedState i s) t
  duty : SameDuty (startedState i s) t
  isRunning : t.isRunning = (startedState i s).isRunning
  configured : t.configured = (applyAfter a s).configured
  faulted : t.faulted = s.faulted
  ended : EndedWith .eOk t
  pwmCtrl : t.pwmCtrl = prescalWord (startedState i s).prescalerCode s.pwmCtrl
  bytes : MemorySameOutside [addrPwmCtrl s] s t
  outside : SameOutside s t
  answers : t.answers = s.answers.drop 4
  trace : t.trace =
    s.trace ++ tracePrescaler s.pwmCtrl (prescalWord (startedState i s).prescalerCode s.pwmCtrl) ++ [.done .eOk]

/-- The line below `SeqPrescaler` is none, or sets `configured` and nothing else (R113, R115, R125). -/
theorem seqPrescalerEnds {i : Instr} {s : State} {a : After} (hm : Memory.wf s.mem)
    (hprog : program i s.isRunning = seqPrescaler a) (ha : a = .nothing ∨ a = .setConfigured) :
    SeqPrescalerEnds i a s (completedState i s) := by
  have hm' : Memory.wf (startedState i s).mem := by simpa using hm
  have hframe := opsFrame_advanceAll (updateGroup .pwm [.prescal]) (startedState i s)
  have hdone := updatesDone_updateGroup .pwm [.prescal] (startedState i s)
  have hend : completedState i s =
      complete (applyAfter a (advanceAll (updateGroup .pwm [.prescal]) (startedState i s))) := by
    rw [completedState, hprog, advanceAll_seqPrescaler]
  refine ⟨?timing, ?duty, ?running, ?conf, ?faulted, completedState_ended (by rw [hprog]; exact nofun), ?word, ?bytes,
    completedState_outside i s, by rw [completedState_answers, hprog]; rfl, ?trace⟩
  all_goals rw [hend]
  case timing => rcases ha with rfl | rfl <;> exact hframe.timing
  case duty => rcases ha with rfl | rfl <;> exact ⟨hframe.dutyTicks (by decide), hframe.dutyPct⟩
  case running => rcases ha with rfl | rfl <;> exact hframe.isRunning (by decide)
  case conf =>
    rcases ha with rfl | rfl
    · exact (hframe.configured (by decide)).trans (startedState_configured i s)
    · rfl
  case faulted => simpa using hframe.faulted
  case word =>
    have hword := hdone.prescal_word hm'
    rw [startedState_pwmCtrl] at hword
    rcases ha with rfl | rfl <;> exact hword
  case bytes =>
    have hbytes := memorySameOutside_startedState.1 (hdone.bytes hm')
    rw [updateAddr_startedState] at hbytes
    rcases ha with rfl | rfl <;> exact hbytes
  case trace => simp [trace_seqPrescaler]

/-- Settles O21: `SeqPrescaler` after the register lines of `INIT`, and `configured` set below it. -/
theorem initCompletes : Obligations.InitCompletes := by
  intro f s h1 h2 hc hf hm ha
  have hends : SeqPrescalerEnds (.init f) .setConfigured s _ := seqPrescalerEnds hm rfl (.inr rfl)
  obtain ⟨hfreq, hcode, hperiod⟩ := hends.timing
  obtain ⟨hticks, hpct⟩ := hends.duty
  refine ⟨_, exec_of_answersOk (admitted_init h1 h2 hc hf) ha, ?freq, hcode, ?period, hpct, hticks, hends.isRunning,
    hends.configured, hends.faulted.trans hf, hends.ended, hends.pwmCtrl, hends.bytes, hends.outside, hends.answers,
    hends.trace⟩
  case freq => exact (congrArg BitVec.toNat hfreq).trans (toNat_ofNat_freq h2)
  case period => exact (congrArg BitVec.toNat hperiod).trans (toNat_ofNat_period h1 h2)

/-- Settles O22: `SeqPrescaler` and no register line. -/
theorem cfgpsCompletes : Obligations.CfgpsCompletes := by
  intro s hc hf hm ha
  have hends : SeqPrescalerEnds .cfgps .nothing s _ := seqPrescalerEnds hm rfl (.inl rfl)
  exact ⟨_, exec_of_answersOk (admitted_cfgps hc hf) ha, hends.timing, hends.duty,
    ⟨hends.isRunning, hends.configured, hends.faulted⟩, hends.ended, hends.pwmCtrl, hends.bytes, hends.outside,
    hends.answers, hends.trace⟩

/-- Settles O27: `SeqPrescaler` after the register lines of `RESET`. -/
theorem resetStoppedCompletes : Obligations.ResetStoppedCompletes := by
  intro f s h1 h2 hc hf hr hm ha
  have hprog : program (.reset f) s.isRunning = seqPrescaler .nothing := by rw [hr]; rfl
  have hends := seqPrescalerEnds hm hprog (.inl rfl)
  obtain ⟨hfreq, hcode, hperiod⟩ := hends.timing
  obtain ⟨hticks, hpct⟩ := hends.duty
  refine ⟨_, exec_of_answersOk (admitted_reset h1 h2 hc hf) (by rw [hprog]; exact ha), ?freq, hcode, ?period,
    hpct, ?ticks, ⟨hends.isRunning, hends.configured, hends.faulted⟩, hends.ended, hends.pwmCtrl, hends.bytes, hends.outside,
    hends.answers, hends.trace⟩
  case freq => exact (congrArg BitVec.toNat hfreq).trans (toNat_ofNat_freq h2)
  case period => exact (congrArg BitVec.toNat hperiod).trans (toNat_ofNat_period h1 h2)
  case ticks =>
    exact (congrArg BitVec.toNat hticks).trans
      (toNat_latchDuty_of_period (s := loadSelection f (accept (encode (.reset f)) s)) h1 h2 rfl)

/-! ### `CFGPS` twice -/

/-- `PRESCAL` is bits `[3:0]` (R93), so a word with another code in it has the other bits as they were. -/
theorem extractLsb'_prescalWord (code : BitVec 4) (old : Word) :
    (prescalWord code old).extractLsb' 4 28 = old.extractLsb' 4 28 := by
  have hkept : (0xFFFFFFF0 : Word).extractLsb' 4 28 = BitVec.allOnes 28 := by decide
  have hcode : ∀ c : BitVec 4, (c.zeroExtend 32).extractLsb' 4 28 = 0 := by decide
  rw [prescalWord, BitVec.extractLsb'_or, BitVec.extractLsb'_and, hkept, hcode, BitVec.and_allOnes]
  exact BitVec.or_zero

/-- The memory after a `CFGPS` (R115). -/
theorem completedState_cfgps_mem (s : State) : (completedState .cfgps s).mem = updatedMem s .prescal s.mem :=
  (updatesDone_updateGroup .pwm [.prescal] (startedState .cfgps s)).mem

/-- Settles O29: the second `CFGPS` finds the code in place. -/
theorem cfgpsIdempotent : Obligations.CfgpsIdempotent := by
  intro s hc hf hm ha
  have hfirst : SeqPrescalerEnds .cfgps .nothing s (completedState .cfgps s) := seqPrescalerEnds hm rfl (.inl rfl)
  have hmem := completedState_cfgps_mem s
  have hexec := exec_of_answersOk (admitted_cfgps hc hf) fun k (hk : k < 4) => ha k (by omega)
  have ha' : AnswersOk 4 (completedState .cfgps s) :=
    fun k hk => (completedState_answer .cfgps s k).trans (ha (k + 4) (by omega))
  generalize completedState .cfgps s = t at *
  obtain ⟨-, hcode, -⟩ := hfirst.timing
  have hm' : Memory.wf t.mem := hmem ▸ updatedMem_wf s .prescal hm
  have hsecond : SeqPrescalerEnds .cfgps .nothing t _ := seqPrescalerEnds hm' rfl (.inl rfl)
  have hagain : (completedState .cfgps t).mem = t.mem := by
    have hold : readWord t.mem (updateAddr t .prescal) = updatedWord t .prescal s.pwmCtrl :=
      hfirst.pwmCtrl.trans (by rw [← hcode]; rfl)
    rw [completedState_cfgps_mem, updatedMem_eq_self hm' hold]
  have hword : (completedState .cfgps t).pwmCtrl = t.pwmCtrl := by
    rw [State.pwmCtrl, hagain, hsecond.outside.1]; rfl
  refine ⟨t, completedState .cfgps t, hexec, exec_of_answersOk (admitted_cfgps (hfirst.configured.trans hc)
    (hfirst.faulted.trans hf)) ha', hword, hagain, ?bits,
    hsecond.isRunning.trans hfirst.isRunning, ?bytes⟩
  case bits => rw [hfirst.pwmCtrl, extractLsb'_prescalWord]
  case bytes => exact fun a h => by rw [hagain]; exact hfirst.bytes a h

end Sys2Proof.Machine

namespace Sys2Proof.Machine

/-! ### `RUN`, `SETDUTY`, `STOP`, and `RESET` while Running -/

theorem SeqRunEnds.applied {s t : State} (ht : SeqRunEnds s t) (hm : Memory.wf s.mem) (hl : s.params.Legal) :
    RunApplied s.pwmCtrl s t := by
  obtain ⟨-, -, hperiod⟩ := ht.timing
  exact ⟨ht.isRunning, ht.pinCfg hm hl, ht.pwmCtrl hm hl, by rw [hperiod]; exact ht.pwmPeriod hm⟩

/-- What a command leaves whose port operations are one `SeqRun` (R103). -/
structure SeqRunCompletes (i : Instr) (s t : State) : Prop where
  timing : SameTiming (startedState i s) t
  dutyPct : t.dutyPct = (startedState i s).dutyPct
  dutyTicks : t.dutyTicks = (latchDuty (startedState i s)).dutyTicks
  configured : t.configured = s.configured
  faulted : t.faulted = s.faulted
  ended : EndedWith .eOk t
  applied : RunApplied s.pwmCtrl s t
  bytes : MemorySameOutside [addrPinCfg s, addrPwmCtrl s, addrPwmPeriod s] s t
  outside : SameOutside s t
  answers : t.answers = s.answers.drop 9
  trace : t.trace = s.trace ++ traceRun s.pinCfg (pinPwmWord s.pinCfg) s.pwmCtrl (s.pwmCtrl ||| 0x00000070)
    (pack (startedState i s).periodTicks t.dutyTicks) ++ [.done .eOk]

theorem seqRunCompletes {i : Instr} {s : State} (hm : Memory.wf s.mem) (hl : s.params.Legal)
    (hprog : program i s.isRunning = seqRun) : SeqRunCompletes i s (completedState i s) := by
  have hm' : Memory.wf (startedState i s).mem := by simpa using hm
  have hl' : (startedState i s).params.Legal := by simpa using hl
  have hruns : SeqRunEnds (startedState i s) (completedState i s) := by
    rw [completedState, hprog]; exact seqRunEnds_advanceAll _
  have happlied := hruns.applied hm' hl'
  have hbytes := memorySameOutside_startedState.1 (hruns.bytes hm')
  rw [startedState_pwmCtrl, RunApplied, startedState_pinCfg] at happlied
  simp only [addrPinCfg, addrPwmCtrl, addrPwmPeriod, startedState_params] at hbytes
  refine ⟨hruns.timing, hruns.dutyPct, hruns.dutyTicks, hruns.configured.trans (startedState_configured i s),
    hruns.faulted.trans (startedState_faulted i s), completedState_ended (by rw [hprog]; exact nofun), happlied, hbytes,
    completedState_outside i s, by rw [completedState_answers, hprog]; rfl, ?trace⟩
  rw [hruns.dutyTicks, completedState, hprog, complete_trace, trace_seqRun hm' hl', startedState_trace,
    startedState_pinCfg, startedState_pwmCtrl]

/-- Settles O23: `SeqRun` after the register line of `RUN`. -/
theorem runCompletes : Obligations.RunCompletes := by
  intro p s hp hc hf hm hl ha
  have hruns : SeqRunCompletes (.run p) s _ := seqRunCompletes hm hl rfl
  have hpct : (startedState (.run p) s).dutyPct.toNat = p := toNat_ofNat_pct hp
  exact ⟨_, exec_of_answersOk (admitted_run hp hc hf) ha, (congrArg BitVec.toNat hruns.dutyPct).trans hpct,
    (congrArg BitVec.toNat hruns.dutyTicks).trans (toNat_latchDuty_of_pct hp hpct), hruns.timing,
    hruns.configured.trans hc, hruns.faulted.trans hf, hruns.ended, hruns.applied, hruns.bytes, hruns.outside,
    hruns.answers, hruns.trace⟩

/-- Settles O26: `SeqRun` after the register lines of `SETDUTY`, by the re-application rule (R129). -/
theorem setdutyRunningCompletes : Obligations.SetdutyRunningCompletes := by
  intro p s hp hc hf hr hm hl ha
  have hprog : program (.setduty p) s.isRunning = seqRun := by rw [hr]; rfl
  have hruns := seqRunCompletes hm hl hprog
  have hpct : (startedState (.setduty p) s).dutyPct.toNat = p := toNat_ofNat_pct hp
  exact ⟨_, exec_of_answersOk (admitted_setduty hp hc hf) (by rw [hprog]; exact ha),
    (congrArg BitVec.toNat hruns.dutyPct).trans hpct,
    (congrArg BitVec.toNat hruns.dutyTicks).trans (toNat_latchDuty_of_pct hp hpct), hruns.timing,
    ⟨hruns.applied.1.trans hr.symm, hruns.configured, hruns.faulted⟩, hruns.ended, hruns.applied, hruns.bytes,
    hruns.outside, hruns.answers, hruns.trace⟩

/-- Settles O25: the register lines of `SETDUTY` and no port operation. -/
theorem setdutyStoppedCompletes : Obligations.SetdutyStoppedCompletes := by
  intro p s hp hc hf hr
  have hpct : (setdutyHead p s).dutyPct.toNat = p := toNat_ofNat_pct hp
  exact ⟨_, exec_setduty_stopped hp hc hf hr, hpct,
    toNat_latchDuty_of_pct (s := { s with dutyPct := BitVec.ofNat 7 p }) hp hpct,
    ⟨rfl, rfl, rfl⟩, ⟨rfl, rfl, rfl⟩, rfl, rfl, rfl, rfl, ⟨rfl, rfl, rfl⟩, rfl, rfl⟩

/-- Settles O24: `SeqStop` and no register line but the one below it. -/
theorem stopCompletes : Obligations.StopCompletes := by
  intro s hc hf hm hl ha
  have hm' : Memory.wf (startedState .stop s).mem := hm
  have hl' : (startedState .stop s).params.Legal := hl
  have hstops : SeqStopEnds (startedState .stop s) (completedState .stop s) := seqStopEnds_advanceAll _
  have hframe := opsFrame_advanceAll seqStop (startedState .stop s)
  have hcfg := hstops.pinCfg hm' hl'
  have hdat := hstops.pinDat hm' hl'
  have hctrl := hstops.pwmCtrl hm' hl'
  have hbytes := hstops.bytes hm'
  have htrace := congrArg (· ++ [TraceEvent.done .eOk]) (trace_seqStop hm' hl')
  exact ⟨_, exec_of_answersOk (admitted_stop hc hf) ha, hstops.isRunning, hframe.timing,
    ⟨hframe.dutyTicks (by decide), hframe.dutyPct⟩, (hframe.configured (by decide)).trans hc, hframe.faulted.trans hf,
    completedState_ended nofun, hcfg, hdat, hctrl, hbytes, completedState_outside .stop s,
    completedState_answers .stop s, htrace⟩

section PrescalerThenRun

variable {s m : State} (hdone : UpdatesDone [.prescal] s m) (hm : Memory.wf s.mem) (hl : s.params.Legal)
include hdone hm hl

theorem UpdatesDone.prescal_pinCfg : m.pinCfg = s.pinCfg :=
  hdone.readWord_other (u := .pinPwm) hm
    (List.forall_mem_singleton.2 (updateAddr_apart (u := .prescal) (v := .pinPwm) hl (by decide)))

/-- `SeqRun` after `SeqPrescaler` reads the new word of `PWM_CTRL` and the old one of `PIN_CFG` (R127). -/
theorem SeqRunEnds.after_prescaler {t : State} (hruns : SeqRunEnds m t) :
    RunApplied (prescalWord s.prescalerCode s.pwmCtrl) s t ∧
      MemorySameOutside [addrPinCfg s, addrPwmCtrl s, addrPwmPeriod s] s t := by
  have hm' : Memory.wf m.mem := hdone.memory hm
  have happlied := hruns.applied hm' (by rwa [hdone.params])
  have hbytes := hruns.bytes hm'
  rw [RunApplied, hdone.prescal_word hm, hdone.prescal_pinCfg hm hl] at happlied
  simp only [addrPinCfg, addrPwmCtrl, addrPwmPeriod, hdone.params] at hbytes
  have hfirst : MemorySameOutside [addrPwmCtrl s] s m := hdone.bytes hm
  exact ⟨happlied, (hfirst.mono (by simp)).trans hbytes⟩

theorem trace_seqRun_after_prescaler : (advanceAll seqRun m).trace =
    m.trace ++ traceRun s.pinCfg (pinPwmWord s.pinCfg) (prescalWord s.prescalerCode s.pwmCtrl)
      (prescalWord s.prescalerCode s.pwmCtrl ||| 0x00000070) (pack m.periodTicks (latchDuty m).dutyTicks) := by
  rw [trace_seqRun (hdone.memory hm) (by rwa [hdone.params]), hdone.prescal_word hm, hdone.prescal_pinCfg hm hl]

end PrescalerThenRun

/-- Settles O28: `SeqRun` in the state `m` that `SeqPrescaler` leaves after the register lines of `RESET` (R127). -/
theorem resetRunningCompletes : Obligations.ResetRunningCompletes := by
  intro f s h1 h2 hc hf hr hm hl ha
  have hprog : program (.reset f) s.isRunning = updateGroup .pwm [.prescal] ++ seqRun := by rw [hr]; rfl
  have hframe := opsFrame_advanceAll (updateGroup .pwm [.prescal]) (startedState (.reset f) s)
  have hdone := updatesDone_updateGroup .pwm [.prescal] (startedState (.reset f) s)
  have htrace := trace_seqPrescaler (startedState (.reset f) s)
  have hend : completedState (.reset f) s =
      complete (advanceAll seqRun (advanceAll (updateGroup .pwm [.prescal]) (startedState (.reset f) s))) := by
    rw [completedState, hprog, advanceAll_append]
  generalize advanceAll (updateGroup .pwm [.prescal]) (startedState (.reset f) s) = m at *
  obtain ⟨hfreq, hcode, hperiod⟩ := hframe.timing
  have hruns := seqRunEnds_advanceAll m
  have htrace' := trace_seqRun_after_prescaler hdone hm hl
  rw [htrace, ← hruns.dutyTicks] at htrace'
  obtain ⟨happlied, hbytes⟩ := hruns.after_prescaler hdone hm hl
  have hticks := toNat_latchDuty_of_period h1 h2 hperiod
  rw [← hruns.dutyTicks, hframe.dutyPct] at hticks
  obtain ⟨hfreq', hcode', hperiod'⟩ := hruns.timing
  have hflags : SameFlags s (completedState (.reset f) s) := by
    rw [hend]
    exact ⟨hruns.isRunning.trans hr.symm, hruns.configured.trans (hframe.configured (by decide)),
      hruns.faulted.trans hframe.faulted⟩
  refine ⟨_, exec_of_answersOk (admitted_reset h1 h2 hc hf) (by rw [hprog]; exact ha), ?freq, ?code, ?period, ?pct,
    ?ticks, hflags, completedState_ended (by rw [hprog]; exact nofun), ?applied, ?bytes, completedState_outside _ s,
    by rw [completedState_answers, hprog]; rfl, ?trace⟩
  all_goals rw [hend]
  case freq => exact (congrArg BitVec.toNat (hfreq'.trans hfreq)).trans (toNat_ofNat_freq h2)
  case code => exact hcode'.trans hcode
  case period => exact (congrArg BitVec.toNat (hperiod'.trans hperiod)).trans (toNat_ofNat_period h1 h2)
  case pct => exact hruns.dutyPct.trans hframe.dutyPct
  case ticks => exact hticks
  case applied => exact happlied
  case bytes => exact hbytes
  case trace =>
    rw [hperiod']
    exact congrArg (· ++ [TraceEvent.done .eOk]) htrace'

end Sys2Proof.Machine

namespace Sys2Proof.Machine

/-! ### A command cut short by a failing `Acquire` -/

/-- The state an admitted command ends in when the port operations `done` are answered and an `Acquire(w)` then fails
(R130, R145). -/
def cutState (w : Window) (done : List MicroOp) (i : Instr) (s : State) : State :=
  fatal w (dropAnswer (advanceAll done (startedState i s)))

theorem exec_of_acquire_fails {i : Instr} {s : State} {done todo : List MicroOp} {w : Window} {a : After}
    (hadm : Admitted i s) (hprog : program i s.isRunning = done ++ ⟨.acquire w, a⟩ :: todo)
    (ha : AnswersOk done.length s) (hf : s.answer done.length = .fail) : exec i s = .next (cutState w done i s) := by
  have ha' : AnswersOk done.length (startedState i s) := fun k hk => (startedState_answer i s k).trans (ha k hk)
  rw [exec_eq_execute, execute_admitted i _ s hadm, hprog, cutState,
    ← runOps_acquire_fails done todo w a _ ha' ((startedState_answer i s _).trans hf)]
  rfl

/-- What a command leaves that is cut short by a failing `Acquire` after the `RMW`s `us`, with no register line since
its head (R130). -/
structure AcquireFails (us : List Update) (i : Instr) (s t : State) : Prop where
  timing : SameTiming (startedState i s) t
  duty : SameDuty (startedState i s) t
  isRunning : t.isRunning = (startedState i s).isRunning
  configured : t.configured = s.configured
  faulted : t.faulted = true
  ended : EndedWith .eHwAccess t
  outside : SameOutside s t
  updates : UpdatesDone us (startedState i s) t

theorem acquireFails {us : List Update} {w : Window} {done : List MicroOp} {i : Instr} {s : State}
    (hdone : UpdatesDone us (startedState i s) (advanceAll done (startedState i s)))
    (hlines : ∀ op ∈ done, op.after = .nothing) : AcquireFails us i s (cutState w done i s) := by
  have hframe := opsFrame_advanceAll done (startedState i s)
  obtain ⟨hparams, hcode, hmem⟩ := hdone
  exact
    { timing := hframe.timing
      duty := ⟨hframe.dutyTicks fun op hop => by simp [hlines op hop], hframe.dutyPct⟩
      isRunning := hframe.isRunning fun op hop => by simp [hlines op hop]
      configured :=
        (hframe.configured fun op hop => by simp [hlines op hop]).trans (startedState_configured i s)
      faulted := rfl
      ended := ⟨rfl, rfl, rfl⟩
      outside := (startedState_outside i s).trans hframe.outside
      updates := ⟨hparams, hcode, hmem⟩ }

/-- At the first port operation of a command. -/
theorem acquireFails_first (w : Window) (i : Instr) (s : State) : AcquireFails [] i s (cutState w [] i s) :=
  acquireFails ⟨rfl, rfl, rfl⟩ nofun

/-- After the pin group of `SeqRun`. -/
theorem acquireFails_after_pinPwm (i : Instr) (s : State) :
    AcquireFails [.pinPwm] i s (cutState .pwm (updateGroup .pin [.pinPwm]) i s) :=
  acquireFails (updatesDone_updateGroup _ _ _) (by decide)

theorem cutState_first_mem (w : Window) (i : Instr) (s : State) : (cutState w [] i s).mem = s.mem := by
  simp [cutState]

theorem cutState_first_trace (w : Window) (i : Instr) (s : State) :
    (cutState w [] i s).trace = s.trace ++ [.acquire w false, .done .eHwAccess] := by
  simp [cutState]

theorem AcquireFails.bytes {us : List Update} {i : Instr} {s t : State} (h : AcquireFails us i s t)
    (hm : Memory.wf s.mem) : MemorySameOutside (us.map (updateAddr s)) s t := by
  have hbytes := h.updates.bytes (by simpa using hm)
  rwa [memorySameOutside_startedState, updateAddr_startedState] at hbytes

theorem AcquireFails.readWord_same {us vs : List Update} {u : Update} {i : Instr} {s t : State}
    (h : AcquireFails (us ++ u :: vs) i s t) (hm : Memory.wf s.mem)
    (hb : ∀ v ∈ us ++ vs, Apart (updateAddr s v) (updateAddr s u)) :
    readWord t.mem (updateAddr t u) = updatedWord (startedState i s) u (readWord s.mem (updateAddr s u)) := by
  rw [← updateAddr_startedState i s] at hb ⊢
  rw [h.updates.readWord_same (by simpa using hm) hb, startedState_mem]

theorem AcquireFails.readWord_other {us : List Update} {u : Update} {i : Instr} {s t : State}
    (h : AcquireFails us i s t) (hm : Memory.wf s.mem)
    (hb : ∀ v ∈ us, Apart (updateAddr s v) (updateAddr s u)) :
    readWord t.mem (updateAddr t u) = readWord s.mem (updateAddr s u) := by
  rw [← updateAddr_startedState i s] at hb ⊢
  rw [h.updates.readWord_other (by simpa using hm) hb, startedState_mem]

/-- Settles O38: the first port operation of `SeqPrescaler` fails. -/
theorem prescalerAcquireFailure : Obligations.PrescalerAcquireFailure := by
  refine ⟨fun f s h1 h2 hc hf ha => ?_, fun s hc hf ha => ?_⟩
  · have hfail := acquireFails_first .pwm (.init f) s
    have hexec := exec_of_acquire_fails (done := []) (admitted_init h1 h2 hc hf) rfl nofun ha
    obtain ⟨hfreq, hcode, hperiod⟩ := hfail.timing
    obtain ⟨hticks, hpct⟩ := hfail.duty
    exact ⟨_, hexec, hfail.ended, hfail.faulted, hfail.configured.trans hc, hfail.isRunning,
      (congrArg BitVec.toNat hfreq).trans (toNat_ofNat_freq h2), hcode,
      (congrArg BitVec.toNat hperiod).trans (toNat_ofNat_period h1 h2), hpct, hticks, cutState_first_mem _ _ s,
      hfail.outside, cutState_first_trace _ _ s⟩
  · have hfail := acquireFails_first .pwm .cfgps s
    have hexec := exec_of_acquire_fails (done := []) (admitted_cfgps hc hf) rfl nofun ha
    exact ⟨_, hexec, hfail.ended, hfail.faulted, hfail.configured.trans hc, hfail.isRunning, hfail.timing, hfail.duty,
      cutState_first_mem _ _ s, hfail.outside, cutState_first_trace _ _ s⟩

/-- `PIN_CFG` after the pin group of `SeqRun`. -/
theorem AcquireFails.pinCfg_pinPwm {i : Instr} {s t : State} (h : AcquireFails [.pinPwm] i s t)
    (hm : Memory.wf s.mem) : t.pinCfg = pinPwmWord s.pinCfg :=
  h.readWord_same (us := []) (u := .pinPwm) (vs := []) hm nofun

/-- Settles O39: at either `Acquire` of `SeqRun`, the registers are those that the head of the command left. -/
theorem runAcquireFailure : Obligations.RunAcquireFailure := by
  intro p s hp hc hf hm
  have hpct := toNat_ofNat_pct hp
  have hticks : (startedState (.setduty p) s).dutyTicks.toNat = s.periodTicks.toNat * p / 100 :=
    toNat_latchDuty_of_pct (s := { s with dutyPct := BitVec.ofNat 7 p }) hp hpct
  have hprog (hr : s.isRunning = true) : program (.setduty p) s.isRunning = seqRun := by rw [hr]; rfl
  refine ⟨fun ha => ⟨?runPin, fun hr => ?setdutyPin⟩, fun hok ha => ⟨?runPwm, fun hr => ?setdutyPwm⟩⟩
  case runPin =>
    have hfail := acquireFails_first .pin (.run p) s
    obtain ⟨hduty, hpct'⟩ := hfail.duty
    exact ⟨_, exec_of_acquire_fails (done := []) (admitted_run hp hc hf) rfl nofun ha, hfail.ended, hfail.faulted,
      hfail.configured.trans hc, hfail.isRunning, hfail.timing, (congrArg BitVec.toNat hpct').trans hpct, hduty,
      cutState_first_mem _ _ s, hfail.outside, cutState_first_trace _ _ s⟩
  case setdutyPin =>
    have hfail := acquireFails_first .pin (.setduty p) s
    obtain ⟨hduty, hpct'⟩ := hfail.duty
    exact ⟨_, exec_of_acquire_fails (done := []) (admitted_setduty hp hc hf) (hprog hr) nofun ha, hfail.ended,
      hfail.faulted, hfail.configured.trans hc, hfail.isRunning.trans hr, hfail.timing,
      (congrArg BitVec.toNat hpct').trans hpct, (congrArg BitVec.toNat hduty).trans hticks,
      cutState_first_mem _ _ s, hfail.outside, cutState_first_trace _ _ s⟩
  case runPwm =>
    have hfail := acquireFails_after_pinPwm (.run p) s
    obtain ⟨hduty, hpct'⟩ := hfail.duty
    exact ⟨_, exec_of_acquire_fails (admitted_run hp hc hf) seqRun_eq hok ha, hfail.ended, hfail.faulted,
      hfail.configured.trans hc, hfail.isRunning, hfail.timing, (congrArg BitVec.toNat hpct').trans hpct, hduty,
      hfail.pinCfg_pinPwm hm, hfail.bytes hm, hfail.outside⟩
  case setdutyPwm =>
    have hfail := acquireFails_after_pinPwm (.setduty p) s
    obtain ⟨hduty, hpct'⟩ := hfail.duty
    exact ⟨_, exec_of_acquire_fails (admitted_setduty hp hc hf) ((hprog hr).trans seqRun_eq) hok ha, hfail.ended,
      hfail.faulted, hfail.configured.trans hc, hfail.isRunning.trans hr, hfail.timing,
      (congrArg BitVec.toNat hpct').trans hpct, (congrArg BitVec.toNat hduty).trans hticks,
      hfail.pinCfg_pinPwm hm, hfail.bytes hm, hfail.outside⟩

/-- Settles O40: at the second `Acquire` of `SeqStop` its pin group is done. -/
theorem stopAcquireFailure : Obligations.StopAcquireFailure := by
  intro s hc hf hm
  refine ⟨fun ha => ?pin, fun hok ha => ?pwm⟩
  case pin =>
    have hfail := acquireFails_first .pin .stop s
    exact ⟨_, exec_of_acquire_fails (done := []) (admitted_stop hc hf) rfl nofun ha, hfail.ended, hfail.faulted,
      hfail.configured.trans hc, hfail.isRunning, hfail.timing, hfail.duty, cutState_first_mem _ _ s, hfail.outside,
      cutState_first_trace _ _ s⟩
  case pwm =>
    have hfail : AcquireFails [.pinGpio, .pinLow] .stop s
        (cutState .pwm (updateGroup .pin [.pinGpio, .pinLow]) .stop s) :=
      acquireFails (updatesDone_updateGroup _ _ _) (by decide)
    have hexec := exec_of_acquire_fails (done := updateGroup .pin [.pinGpio, .pinLow]) (admitted_stop hc hf) rfl hok ha
    have hapart := pinCfg_apart_pinDat s
    have hcfg : _ = pinGpioWord s.params.gpioOutCode s.pinCfg :=
      hfail.readWord_same (us := []) (u := .pinGpio) (vs := [.pinLow]) hm (List.forall_mem_singleton.2 hapart.symm)
    have hdat : _ = s.pinDat &&& 0xFFFFFFDF :=
      (hfail.readWord_same (us := [.pinGpio]) (u := .pinLow) (vs := []) hm (List.forall_mem_singleton.2 hapart)).trans
        (mergeField_zero maskPinOut s.pinDat)
    exact ⟨_, hexec, hfail.ended, hfail.faulted, hfail.configured.trans hc, hfail.isRunning, hfail.timing, hfail.duty,
      hcfg, hdat, hfail.bytes hm, hfail.outside⟩

/-- What `RESET` leaves at a failing `Acquire`, whichever it is (R130). -/
theorem AcquireFails.reset_registers {us : List Update} {f : Nat} {s t : State} (h1 : 1 ≤ f) (h2 : f ≤ maxFreq)
    (h : AcquireFails us (.reset f) s t) : t.frequencyHz.toNat = f ∧ t.prescalerCode = (select f).code ∧
      t.periodTicks.toNat = (select f).period ∧ t.dutyPct = s.dutyPct ∧
      t.dutyTicks.toNat = (select f).period * s.dutyPct.toNat / 100 := by
  obtain ⟨hfreq, hcode, hperiod⟩ := h.timing
  obtain ⟨hticks, hpct⟩ := h.duty
  exact ⟨(congrArg BitVec.toNat hfreq).trans (toNat_ofNat_freq h2), hcode,
    (congrArg BitVec.toNat hperiod).trans (toNat_ofNat_period h1 h2), hpct,
    (congrArg BitVec.toNat hticks).trans
      (toNat_latchDuty_of_period (s := loadSelection f (accept (encode (.reset f)) s)) h1 h2 rfl)⟩

/-- The `RMW`s of `RESET` done before its `n`-th port operation, where that is an `Acquire` (R130). -/
def resetUpdatesBefore (n : Nat) : List Update :=
  if n = 0 then [] else if n = 4 then [.prescal] else [.prescal, .pinPwm]

/-- `RESET` at each of its `Acquire`s; the second and third exist only while Running (R125, R129). -/
theorem exec_reset_acquire_fails {f n : Nat} {s : State} (hadm : Admitted (.reset f) s)
    (hn : n = 0 ∨ s.isRunning = true ∧ (n = 4 ∨ n = 8)) (hok : AnswersOk n s) (ha : s.answer n = .fail) :
    ∃ t, exec (.reset f) s = .next t ∧ AcquireFails (resetUpdatesBefore n) (.reset f) s t := by
  rcases hn with rfl | ⟨hr, rfl | rfl⟩
  · exact ⟨_, exec_of_acquire_fails (done := []) hadm rfl hok ha, acquireFails_first .pwm _ s⟩
  · exact ⟨_, exec_of_acquire_fails (done := updateGroup .pwm [.prescal]) hadm (by rw [hr]; rfl) hok ha,
      acquireFails (w := .pin) (updatesDone_updateGroup _ _ _) (by decide)⟩
  · have hdone : UpdatesDone [.prescal, .pinPwm] (startedState (.reset f) s)
        (advanceAll (updateGroup .pwm [.prescal] ++ updateGroup .pin [.pinPwm]) (startedState (.reset f) s)) := by
      rw [advanceAll_append]
      exact (updatesDone_updateGroup .pwm [.prescal] _).append (updatesDone_updateGroup .pin [.pinPwm] _)
    exact ⟨_, exec_of_acquire_fails (done := updateGroup .pwm [.prescal] ++ updateGroup .pin [.pinPwm]) hadm
      (by rw [hr]; rfl) hok ha, acquireFails (w := .pwm) hdone (by decide)⟩

/-- Settles O41: at each `Acquire` the groups before it are done. -/
theorem resetAcquireFailure : Obligations.ResetAcquireFailure := by
  intro f s h1 h2 hc hf hm hl n hn hok ha
  obtain ⟨t, hexec, hfail⟩ := exec_reset_acquire_fails (admitted_reset h1 h2 hc hf) hn hok ha
  obtain ⟨hfreq, hcode, hperiod, hpct, hticks⟩ := hfail.reset_registers h1 h2
  have hbytes := hfail.bytes hm
  have happart : Apart (updateAddr s .prescal) (updateAddr s .pinPwm) := updateAddr_apart hl (by decide)
  refine ⟨t, hexec, hfail.ended, hfail.faulted, hfail.configured.trans hc, hfail.isRunning, hfreq, hcode, hperiod, hpct,
    hticks, hfail.outside, ?ctrl, ?cfg, ?bytes⟩
  case bytes => rcases hn with rfl | ⟨-, rfl | rfl⟩ <;> exact hbytes
  case ctrl =>
    rcases hn with rfl | ⟨-, rfl | rfl⟩
    · exact hfail.readWord_other (us := []) (u := .prescal) hm nofun
    · exact hfail.readWord_same (us := []) (u := .prescal) (vs := []) hm nofun
    · exact hfail.readWord_same (us := []) (u := .prescal) (vs := [.pinPwm]) hm
        (List.forall_mem_singleton.2 happart.symm)
  case cfg =>
    rcases hn with rfl | ⟨-, rfl | rfl⟩
    · exact hfail.readWord_other (us := []) (u := .pinPwm) hm nofun
    · exact hfail.readWord_other (us := [.prescal]) (u := .pinPwm) hm (List.forall_mem_singleton.2 happart)
    · exact hfail.readWord_same (us := [.prescal]) (u := .pinPwm) (vs := []) hm
        (List.forall_mem_singleton.2 happart)

end Sys2Proof.Machine

namespace Sys2Proof.Machine

/-! ### How an admitted command ends -/

/-- The two flags a command sets, as a pair. -/
def flags (s : State) : Bool × Bool := (s.isRunning, s.configured)

/-- The flags after the register line below a port operation. -/
def flagsAfter (fl : Bool × Bool) (op : MicroOp) : Bool × Bool :=
  match op.after with
  | .nothing | .latchDuty => fl
  | .setRunning => (true, fl.2)
  | .clearRunning => (false, fl.2)
  | .setConfigured => (fl.1, true)

theorem flags_applyAfter (op : MicroOp) (s : State) : flags (applyAfter op.after s) = flagsAfter (flags s) op := by
  rcases op with ⟨p, a⟩
  cases a <;> rfl

theorem flagsAfter_of_not_last {fl : Bool × Bool} {op : MicroOp} (h : op.after = .nothing ∨ op.after = .latchDuty) :
    flagsAfter fl op = fl := by
  rcases h with h | h <;> simp [flagsAfter, h]

/-- The port operations `todo` of command `i` are still to be done; the flags are those of the beginning, `start`, until
the last one is through. -/
structure StillToDo (i : Instr) (r : Bool) (start : Bool × Bool) (todo : List MicroOp) (s : State) : Prop where
  listed : ∃ done, program i r = done ++ todo
  busy : s.busy = true
  unfaulted : s.faulted = false
  flagsToCome : todo.foldl flagsAfter (flags s) = (program i r).foldl flagsAfter start
  flagsKept : todo ≠ [] → flags s = start

theorem StillToDo.next {i : Instr} {r : Bool} {start : Bool × Bool} {op : MicroOp} {todo : List MicroOp} {s u : State}
    (h : StillToDo i r start (op :: todo) s) (hu : PortDone op s u) :
    StillToDo i r start todo (applyAfter op.after u) := by
  obtain ⟨done, hprog⟩ := h.listed
  have hflags : flags u = flags s := by
    obtain ⟨m, v, events, -, rfl⟩ := hu
    rfl
  constructor
  case listed => exact ⟨done ++ [op], by simp [hprog]⟩
  case busy => obtain ⟨m, v, events, -, rfl⟩ := hu; simpa using h.busy
  case unfaulted => obtain ⟨m, v, events, -, rfl⟩ := hu; simpa using h.unfaulted
  case flagsToCome => rw [flags_applyAfter, hflags]; exact h.flagsToCome
  case flagsKept =>
    intro hne
    rw [flags_applyAfter, flagsAfter_of_not_last (after_of_not_last hprog hne), hflags]
    exact h.flagsKept (by simp)

/-- The two ways a command ends that was admitted: with its last port operation, or at a failing `Acquire` (R110). -/
inductive Verdict (final start : Bool × Bool) (t : State) : Prop
  | ok (err : t.err = .eOk) (unfaulted : t.faulted = false) (hflags : flags t = final) : Verdict final start t
  | fatal (err : t.err = .eHwAccess) (faulted : t.faulted = true) (released : t.held = none)
      (hflags : flags t = start) : Verdict final start t

theorem StillToDo.verdict {i : Instr} {r : Bool} {start : Bool × Bool} {todo : List MicroOp} {s : State}
    (h : StillToDo i r start todo s) (idle : (runOps todo s).busy = false) :
    Verdict ((program i r).foldl flagsAfter start) start (runOps todo s) := by
  refine runOps_induct_portDone (StillToDo i r start)
    (fun t => t.busy = false → Verdict ((program i r).foldl flagsAfter start) start t) ?done ?wait ?fail ?next
    todo s h idle
  case done => exact fun t ht _ => .ok rfl ht.unfaulted ht.flagsToCome
  case wait => exact fun _ _ t ht idle => absurd (ht.busy.symm.trans idle) nofun
  case fail => exact fun _ _ t w ht _ => .fatal rfl rfl rfl (ht.flagsKept (by simp))
  case next => exact fun _ _ _ _ ht hu => ht.next hu

/-- An admitted command begins with all its port operations to do. -/
theorem stillToDo_startedState {i : Instr} {s : State} (hf : s.faulted = false) :
    StillToDo i s.isRunning (flags (startedState i s)) (program i s.isRunning) (startedState i s) :=
  ⟨⟨[], rfl⟩, by simp [startedState], by simpa using hf, rfl, fun _ => rfl⟩

theorem exec_of_admitted {i : Instr} {s : State} (hadm : Admitted i s) :
    exec i s = .next (runOps (program i s.isRunning) (startedState i s)) := by
  rw [exec_eq_execute, execute_admitted i _ s hadm]; rfl

theorem exec_of_refused {i : Instr} {s : State} (hadm : ¬ Admitted i s) :
    exec i s = .next (refuse (admission (.ok i) s) (accept (encode i) s)) := by
  rw [exec_eq_execute, execute_refused i _ s hadm]

/-- A port operation that completed brings no new answer. -/
theorem PortDone.coming {op : MicroOp} {s u : State} (hu : PortDone op s u) :
    ∀ x ∈ (applyAfter op.after u).coming, x ∈ s.coming := by
  obtain ⟨m, v, events, -, rfl⟩ := hu
  simp only [State.coming, applyAfter_restAnswer, applyAfter_answers]
  exact List.cons_subset_cons _ (List.tail_subset _)

/-- If no `Acquire` fails, a run through port operations that ends does so with `E_OK` (R110). -/
theorem runOps_eOk {ops : List MicroOp} {s : State} (hok : AcquireOk s) (hb : s.busy = true)
    (idle : (runOps ops s).busy = false) : (runOps ops s).err = .eOk := by
  obtain ⟨hanswers, hrest⟩ := hok
  have next {op : MicroOp} {t u : State} (ht : t.busy = true ∧ ∀ x ∈ t.coming, x ≠ .fail) (hu : PortDone op t u) :
      (applyAfter op.after u).busy = true ∧ ∀ x ∈ (applyAfter op.after u).coming, x ≠ .fail := by
    obtain ⟨hbusy, hcoming⟩ := ht
    refine ⟨?_, fun x hx => hcoming x (hu.coming x hx)⟩
    obtain ⟨m, v, events, -, rfl⟩ := hu
    simpa using hbusy
  refine runOps_induct (fun _ t => t.busy = true ∧ ∀ x ∈ t.coming, x ≠ .fail)
    (fun t => t.busy = false → t.err = .eOk) ?done ?wait ?fail ?next ?after ?reads ops s
    ⟨hb, List.forall_mem_cons.2 ⟨hrest, hanswers⟩⟩ idle
  case done => exact fun _ _ _ => rfl
  case wait => exact fun _ _ t ⟨hb, _⟩ _ idle => absurd (hb.symm.trans idle) nofun
  case fail =>
    intro op _ t ⟨_, hcoming⟩ hreply _
    obtain ⟨hnext, -⟩ := portReply_fail_acquire _ _ hreply
    exact absurd hnext (hcoming _ (nextAnswer_mem_coming t))
  case next => exact fun op _ t ht _ => next ht (portDone_perform op t)
  case after => exact fun op _ t cells ht _ => next ht (portDone_envWrites op cells t)
  case reads => exact fun op _ t v fx ht _ => next ht (portDone_performGiven op v fx t)

/-- Settles O37: a run whose port operations are all answered ends, with one of the two verdicts. -/
theorem admittedEndsOkOrFatal : Obligations.AdmittedEndsOkOrFatal := by
  intro i s hadm hport
  obtain ⟨hf, -, -⟩ := (admitted_iff i s).1 hadm
  obtain ⟨hanswers, hrest⟩ := hport
  obtain ⟨-, -, hkept⟩ := startedState_outside i s
  have hport' : PortAnswers (startedState i s) := ⟨by simpa [startedState] using hanswers, by rwa [hkept]⟩
  have idle := runOps_idle (program i s.isRunning) hport'
  refine ⟨_, exec_of_admitted hadm, idle, ?_, fun hok => ?_⟩
  · cases (stillToDo_startedState hf).verdict idle with
    | ok err unfaulted => exact .inl ⟨err, unfaulted⟩
    | fatal err faulted released => exact .inr ⟨err, faulted, released⟩
  · obtain ⟨hanswers', hrest'⟩ := hok
    exact runOps_eOk ⟨by simpa [startedState] using hanswers', by rwa [hkept]⟩ (by simp [startedState]) idle

/-! ### The control states -/

/-- The control state of an unfaulted block, by its flags (R128). -/
def controlOf (fl : Bool × Bool) : ControlState :=
  if fl.2 then (if fl.1 then .running else .stopped) else .unconfigured

theorem controlState_of_unfaulted {s : State} (h : s.faulted = false) : controlState s = controlOf (flags s) := by
  rw [controlState, if_neg (by simp [h])]; rfl

theorem controlState_of_faulted {s : State} (h : s.faulted = true) : controlState s = .faulted := by
  rw [controlState, if_pos h]

/-- The register lines of an admitted command that ran to its end lead to the control state of R128: from `Unconfigured`
for `INIT`, from Stopped or Running for the others. -/
theorem nextControl_of_admitted {i : Instr} {s t : State} (hadm : Admitted i s) (ht : t.faulted = false)
    (hflags : flags t = (program i s.isRunning).foldl flagsAfter (flags (startedState i s))) :
    controlState t = nextControl (controlState s) i := by
  obtain ⟨hf, hstate, -⟩ := (admitted_iff i s).1 hadm
  rw [controlState_of_unfaulted ht, controlState_of_unfaulted hf, hflags]
  cases i with
  | init f =>
    have hc : s.configured = false := by simpa [stateAdmits] using hstate
    have hstart : flags (startedState (.init f) s) = (false, false) := congrArg (Prod.mk false) hc
    rw [hstart, flags, hc]; rfl
  | cfgps | run p | stop | setduty p | reset f =>
    have hc : flags s = (s.isRunning, true) := congrArg (Prod.mk s.isRunning) hstate
    refine (congrArg (fun fl => controlOf (List.foldl flagsAfter fl _)) hc).trans ?_
    rw [hc]
    cases s.isRunning <;> rfl

theorem admission_ne_eHwAccess (c : Except DecodeError Instr) (s : State) : admission c s ≠ .eHwAccess := by
  cases hf : s.faulted with
  | false => exact (admission_of_unfaulted c hf).1
  | true => rw [admission_of_faulted c hf]; nofun

/-- Settles O34, by how the command ended. -/
theorem controlTransitions : Obligations.ControlTransitions := by
  intro i s t h idle
  by_cases hadm : Admitted i s
  · rw [exec_of_admitted hadm] at h
    obtain ⟨hf, -, -⟩ := (admitted_iff i s).1 hadm
    cases h
    cases (stillToDo_startedState hf).verdict idle with
    | ok err unfaulted hflags =>
      exact ⟨fun _ => nextControl_of_admitted hadm unfaulted hflags, fun he => absurd (err.symm.trans he) nofun,
        fun he => absurd err he⟩
    | fatal err faulted _ hflags =>
      refine ⟨fun he => absurd (err.symm.trans he) nofun, fun _ => ⟨controlState_of_faulted faulted, ?_⟩,
        fun _ he => absurd err he⟩
      cases i with
      | init f => exact .inl ⟨f, rfl⟩
      | cfgps | run p | stop | setduty p | reset f => exact .inr (congrArg Prod.fst hflags)
  · rw [exec_of_refused hadm] at h
    cases h
    exact ⟨fun he => absurd he hadm, fun he => absurd he (admission_ne_eHwAccess (.ok i) s), fun _ _ => rfl⟩

end Sys2Proof.Machine

namespace Sys2Proof.Machine

/-! ### A late answer -/

theorem advanceGiven_withAnswers (op : MicroOp) (v : Word) (fx : List Host.Cell) (s : State) (xs : List Answer) :
    advanceGiven op v fx { s with answers := xs } = { advanceGiven op v fx s with answers := xs } := by
  rcases op with ⟨p, a⟩
  cases p with
  | rd w off => cases a <;> rfl
  | acquire w | release w | wrField u | wrPeriod => exact advance_withAnswers ⟨_, a⟩ s xs

/-- The reply to a port operation depends on the next answer alone. -/
theorem portReply_congr {s t : State} (op : PortOp) (h : nextAnswer t = nextAnswer s) :
    portReply op t = portReply op s := by
  unfold portReply; rw [h]

/-- The sequencer stands in command `i` where the port operations `todo` are still to be done, and would go on from
there (R112). -/
structure ResumesAt (i : Instr) (r : Bool) (todo : List MicroOp) (s : State) : Prop where
  command : s.curCmd = encode i
  position : ∃ done, program i r = done ++ todo ∧ s.ustep = done.length
  choice : todo ≠ [] → program i s.isRunning = program i r

theorem ResumesAt.next {i : Instr} {r : Bool} {op : MicroOp} {todo : List MicroOp} {s u : State}
    (h : ResumesAt i r (op :: todo) s) (hu : PortDone op s u) : ResumesAt i r todo (applyAfter op.after u) := by
  obtain ⟨m, v, events, -, rfl⟩ := hu
  obtain ⟨done, hprog, hcount⟩ := h.position
  refine ⟨by simpa using h.command, ⟨done ++ [op], by simp [hprog], by simp [hcount]⟩, fun hne => ?_⟩
  have hchoice := h.choice (by simp)
  rcases after_of_not_last hprog hne with ha | ha <;> rw [ha] <;> exact hchoice

theorem ResumesAt.resume_eq {i : Instr} {r : Bool} {op : MicroOp} {todo : List MicroOp} {s : State}
    (hwf : i.wellFormed = true) (h : ResumesAt i r (op :: todo) s) : resume s = .next (runOps (op :: todo) s) := by
  obtain ⟨done, hprog, hcount⟩ := h.position
  have hprog' : program i s.isRunning = done ++ op :: todo := (h.choice (by simp)).trans hprog
  rw [resume_of_command hwf h.command, if_pos (by simp [hprog', hcount]), hprog', hcount, List.drop_left]

/-- A run through port operations that waits at a late answer, inserted after answers `xs` that are none, goes on from
there to where it ends without it (R147). -/
theorem resume_runOps_inserted_wait {i : Instr} {r : Bool} (hwf : i.wellFormed = true) (ops : List MicroOp)
    (xs ys : List Answer) (s : State) (h : ResumesAt i r ops s) (ha : s.answers = xs ++ ys) (hxs : ∀ a ∈ xs, a ≠ .wait)
    (hb : (runOps ops { s with answers := xs ++ .wait :: ys }).busy = true) :
    resume (runOps ops { s with answers := xs ++ .wait :: ys }) = .next (runOps ops s) := by
  induction ops generalizing s xs with
  | nil => exact nomatch hb
  | cons op ops ih =>
    cases xs with
    | nil =>
      have hwait : runOps (op :: ops) { s with answers := .wait :: ys } = s := by
        rw [runOps_wait _ _ _ (portReply_of_wait _ _ rfl), dropAnswer]
        exact congrArg (fun as => { s with answers := as }) ha.symm
      rw [List.nil_append, hwait]
      exact h.resume_eq hwf
    | cons a xs =>
      have hnext : nextAnswer s = a := by rw [nextAnswer, ha]; rfl
      have hreply : portReply op.port { s with answers := a :: xs ++ .wait :: ys } = portReply op.port s :=
        portReply_congr _ hnext.symm
      have hdrop : dropAnswer { s with answers := a :: xs ++ .wait :: ys } =
        { dropAnswer s with answers := xs ++ .wait :: ys } := rfl
      have htail : (dropAnswer s).answers = xs ++ ys := by rw [dropAnswer_answers, ha]; rfl
      obtain ⟨hne, hxs'⟩ := List.forall_mem_cons.1 hxs
      cases hr : portReply op.port s with
      | wait => exact absurd (hnext.symm.trans (portReply_wait _ _ hr)) hne
      | fail => rw [runOps_fail _ _ _ (hreply.trans hr)] at hb; exact nomatch hb
      | ok =>
        rw [runOps_ok _ _ _ (hreply.trans hr), hdrop, advance_withAnswers] at hb ⊢
        rw [runOps_ok _ _ _ hr]
        obtain ⟨-, -, -, hanswers⟩ := advance_outside op (dropAnswer s)
        exact ih xs _ (h.next (portDone_perform op s)) (hanswers.trans htail) hxs' hb
      | after cells =>
        have hcells : envWrites cells { dropAnswer s with answers := xs ++ .wait :: ys } =
          { envWrites cells (dropAnswer s) with answers := xs ++ .wait :: ys } := rfl
        rw [runOps_after _ _ _ _ (hreply.trans hr), hdrop, hcells, advance_withAnswers] at hb ⊢
        rw [runOps_after _ _ _ _ hr]
        obtain ⟨-, -, -, hanswers⟩ := advance_outside op (envWrites cells (dropAnswer s))
        exact ih xs _ (h.next (portDone_envWrites op cells s)) (hanswers.trans htail) hxs' hb
      | reads v fx =>
        rw [runOps_reads _ _ _ _ _ (hreply.trans hr), hdrop, advanceGiven_withAnswers] at hb ⊢
        rw [runOps_reads _ _ _ _ _ hr]
        obtain ⟨-, -, -, hanswers⟩ := advanceGiven_outside op v fx (dropAnswer s)
        exact ih xs _ (h.next (portDone_performGiven op v fx s)) (hanswers.trans htail) hxs' hb

theorem resumesAt_startedState (i : Instr) (s : State) :
    ResumesAt i s.isRunning (program i s.isRunning) (startedState i s) :=
  ⟨by simp [startedState], ⟨[], rfl, by simp [startedState]⟩, fun _ => program_commandHead i _⟩

theorem startedState_withAnswers (i : Instr) (s : State) (as : List Answer) :
    startedState i { s with answers := as } = { startedState i s with answers := as } :=
  commandHead_withAnswers i (accept (encode i) s) as

/-- A busy block ahead of which there is neither a write nor a reset goes on. -/
theorem step_eq_resume {s : State} (hb : s.busy = true) (hwrite : NoWriteNext s) (hreset : NoResetNext s) :
    step s = resume s := by
  refine step_resumes s hb ?_
  match hin : s.inputs with
  | [] => exact .inl rfl
  | .command c :: rest => exact .inr ⟨c, rest, rfl⟩
  | .envWrite cell :: rest => exact absurd hin (hwrite hb cell rest)
  | .hardReset :: rest => exact absurd hin (hreset hb rest)

/-- Settles O49: the command waits at the inserted answer, where the next step takes it up. -/
theorem waitChangesNothing : Obligations.WaitChangesNothing := by
  intro i s t u xs ys hwf hxs ha ht hu hb hwrite hreset
  rw [step_eq_resume hb hwrite hreset]
  by_cases hadm : Admitted i s
  · have hadm' : Admitted i { s with answers := xs ++ .wait :: ys } := hadm
    rw [exec_of_admitted hadm] at ht
    rw [exec_of_admitted hadm', startedState_withAnswers] at hu
    cases ht
    cases hu
    exact resume_runOps_inserted_wait hwf _ xs ys _ (resumesAt_startedState i s)
      (by simpa [startedState] using ha) hxs hb
  · have hadm' : ¬ Admitted i { s with answers := xs ++ .wait :: ys } := hadm
    rw [exec_of_refused hadm'] at hu
    cases hu
    exact nomatch hb

end Sys2Proof.Machine

namespace Sys2Proof

/-! ### The numbers of a legal word (R51, R55) -/

/-- The opcode and operand numbers of a word are those of the command it spells. -/
theorem fields_of_decode {c : Word} {i : Instr} (h : decode c = .ok i) :
    c.toNat / 2 ^ 28 = opcodeNumber i ∧ c.toNat % 2 ^ 28 = operandNumber i := by
  obtain ⟨hwf, rfl⟩ := wellFormed_and_encode_of_decode h
  have hlt := operandNumber_lt hwf
  rw [encode_toNat hwf]
  omega

theorem opcodeRow_mem_opcodeMap (i : Instr) : opcodeRow i ∈ opcodeMap := by
  cases i <;> simp [opcodeMap, opcodeRow]

theorem exists_instr_of_mem_opcodeMap {r : OpcodeRow} (h : r ∈ opcodeMap) : ∃ i, r = opcodeRow i := by
  have hmap : opcodeMap = [Instr.init 0, .cfgps, .run 0, .stop, .setduty 0, .reset 0].map opcodeRow := rfl
  obtain ⟨i, -, hi⟩ := List.mem_map.1 (hmap ▸ h)
  exact ⟨i, hi.symm⟩

/-- A word matches some row of the opcode map exactly when it spells a command (R55, R56). -/
theorem any_spells_iff (c : Word) : (opcodeMap.any fun r => r.spells c) = true ↔ ∃ i, decode c = .ok i := by
  obtain ⟨spellsOfDecode, decodeOfSpells, -⟩ := opcodeMapDecides
  rw [List.any_eq_true]
  constructor
  · rintro ⟨r, hr, hspells⟩
    obtain ⟨i, rfl⟩ := exists_instr_of_mem_opcodeMap hr
    obtain ⟨j, hj, -⟩ := decodeOfSpells c i hspells
    exact ⟨j, hj⟩
  · rintro ⟨i, hi⟩
    exact ⟨opcodeRow i, opcodeRow_mem_opcodeMap i, spellsOfDecode c i hi⟩

end Sys2Proof

namespace Sys2Proof.Machine

/-! ### Refusals: their order, and what they leave alone (R140 to R143) -/

/-- `INIT` is the one command with opcode 1, and the one that needs `configured` clear (R142). -/
theorem stateAdmits_eq_false_iff (i : Instr) (s : State) : stateAdmits i s = false ↔
    (opcodeNumber i = 1 ∧ s.configured = true) ∨ (opcodeNumber i ≠ 1 ∧ s.configured = false) := by
  cases i <;> simp [stateAdmits, opcodeNumber]

theorem freqLegal_eq_false_iff (f : Nat) : freqLegal f = false ↔ f = 0 ∨ 24000000 < f := by
  rw [← Bool.not_eq_true, freqLegal_iff, maxFreq]
  omega

theorem pctLegal_eq_false_iff (p : Nat) : pctLegal p = false ↔ 100 < p := by
  rw [pctLegal, decide_eq_false_iff_not, not_le, maxPct]

/-- The legal operands of shape F and of shape P, by the opcodes of their rows (R57, R141). -/
theorem operandLegal_eq_false_iff {i : Instr} (h : i.wellFormed = true) : operandLegal i = false ↔
    ((opcodeNumber i = 1 ∨ opcodeNumber i = 6) ∧ (operandNumber i = 0 ∨ 24000000 < operandNumber i)) ∨
      ((opcodeNumber i = 3 ∨ opcodeNumber i = 5) ∧ 100 < operandNumber i % 2 ^ 7) := by
  cases i with
  | init f | reset f => simp [operandLegal, freqLegal_eq_false_iff, opcodeNumber, operandNumber]
  | run p | setduty p =>
    have hp : p % 2 ^ 7 = p := Nat.mod_eq_of_lt (of_decide_eq_true h)
    simp only [operandLegal, pctLegal_eq_false_iff, opcodeNumber, operandNumber, hp]
    simp
  | cfgps | stop => simp [operandLegal, opcodeNumber]

theorem admission_error_of_unfaulted (e : DecodeError) {s : State} (h : s.faulted = false) :
    admission (.error e) s = .eIllegal := by
  unfold admission; rw [if_neg (by simp [h])]

theorem admission_ok_of_unfaulted (i : Instr) {s : State} (h : s.faulted = false) : admission (.ok i) s =
    if stateAdmits i s = false then .eState else if operandLegal i = false then .eInput else .eOk := by
  unfold admission; rw [if_neg (by simp [h])]
  dsimp only
  cases stateAdmits i s <;> cases operandLegal i <;> rfl

/-- Settles O35, in the order of R143: the fault, then whether a row matches, then the state and the operand that the
command of that row asks for. -/
theorem admitPriority : Obligations.AdmitPriority := by
  intro c s
  cases hf : s.faulted with
  | true => rw [admission_of_faulted _ hf, if_pos rfl]
  | false =>
    rw [if_neg Bool.false_ne_true]
    cases hd : decode c with
    | error e =>
      have hnone : (opcodeMap.any fun r => r.spells c) = false := by
        rw [← Bool.not_eq_true, any_spells_iff, hd]
        simp
      rw [admission_error_of_unfaulted e hf, if_pos hnone]
    | ok i =>
      have hsome : ¬ (opcodeMap.any fun r => r.spells c) = false := by
        rw [Bool.not_eq_false, any_spells_iff]
        exact ⟨i, hd⟩
      obtain ⟨hwf, -⟩ := wellFormed_and_encode_of_decode hd
      obtain ⟨hop, harg⟩ := fields_of_decode hd
      have hpct : c.toNat % 2 ^ 7 = operandNumber i % 2 ^ 7 := by omega
      rw [admission_ok_of_unfaulted i hf, if_neg hsome, hop, harg, hpct, ← ite_or, ← ite_or]
      simp only [stateAdmits_eq_false_iff, operandLegal_eq_false_iff hwf]

/-- Settles O36: the step is `refuse` at the accepted word, and neither of the two touches more than `err` and the
sequencer's own registers. -/
theorem refusalChangesOnlyErr : Obligations.RefusalChangesOnlyErr := by
  intro c rest s idle hin hadm
  refine ⟨_, step_command_refused idle hin hadm, ?_⟩
  simp [SameTiming, SameDuty, SameFlags]

/-! ### A port that never answers (R147) -/

/-- A state that a step answers unchanged stays for any number of steps. -/
theorem run_of_step_eq_self {s : State} (h : step s = .next s) (n : Nat) : Sys2Proof.core.run n s = .next s := by
  induction n with
  | zero => rfl
  | succ n ih => simpa [Host.Core.run, Sys2Proof.core, h] using ih

/-- A port operation that the port leaves unanswered from here on leaves the block where it was. -/
theorem runOps_of_never_answers {s : State} {ops : List MicroOp} (hne : ops ≠ []) (hanswers : s.answers = [])
    (hrest : s.restAnswer = .wait) : runOps ops s = s := by
  obtain ⟨op, ops, rfl⟩ := List.exists_cons_of_ne_nil hne
  have hnext : nextAnswer s = .wait := by rw [nextAnswer, hanswers]; exact hrest
  rw [runOps_wait _ _ _ (portReply_of_wait _ _ hnext), dropAnswer, hanswers]
  exact congrArg (fun as => { s with answers := as }) hanswers.symm

/-- Settles O48: the step takes up the port operation that `ustep` names, which waits again. -/
theorem portNeverAnswersHangs : Obligations.PortNeverAnswersHangs := by
  intro s hb ⟨i, hwf, hcmd, _, hlt, _⟩ hanswers hrest hin
  refine run_of_step_eq_self ?_
  have htodo : (program i s.isRunning).drop s.ustep ≠ [] := by simpa using hlt
  rw [step_resumes s hb (.inl hin), resume_of_command hwf hcmd, if_pos hlt,
    runOps_of_never_answers htodo hanswers hrest]

end Sys2Proof.Machine

namespace Sys2Proof.Machine

/-! ### Hardware reset (R160, R161) -/

/-- Hardware reset is taken at once, busy or idle (R160). -/
theorem step_hardReset {s : State} {rest : List Input} (hin : s.inputs = .hardReset :: rest) :
    step s = .next (hardReset { s with inputs := rest }) := by
  have hf : fetch s = .settled (hardReset { s with inputs := rest }) := by rw [fetch, hin]
  rw [step, hf]

/-- With nothing presented an idle block waits (R160). -/
theorem step_waits {s : State} (idle : s.busy = false) (hin : s.inputs = []) : step s = .next s := by
  have hf : fetch s = .settled s := by rw [fetch, hin]; exact if_neg (by simp [idle])
  rw [step, hf]

/-- Settles O46: the step is `hardReset`, which leaves the block idle, and an idle block with nothing presented
waits. -/
theorem hardwareReset : Obligations.HardwareReset := by
  intro rest s hin
  exact ⟨_, step_hardReset hin, rfl, rfl, rfl, rfl, rfl, rfl, rfl, rfl, rfl, rfl, rfl, rfl, rfl, rfl, rfl, rfl, rfl,
    fun hrest => step_waits rfl hrest⟩

end Sys2Proof.Machine

namespace Sys2Proof.Machine

/-! ### Writes that a word write covers -/

/-- In canonical form the entries are the addresses that do not read as unlisted ones, each with its byte. -/
theorem mem_memory_iff {m : Memory} (h : Memory.wf m) (c : Host.Cell) :
    c ∈ m ↔ readByte m c.1 = c.2 ∧ c.2 ≠ unwrittenByte := by
  refine ⟨fun hc => ⟨readByte_of_mem h hc, h.2 c hc⟩, fun hc => ?_⟩
  obtain ⟨hread, hne⟩ := hc
  induction m with
  | nil => exact absurd hread.symm hne
  | cons d m ih =>
    rw [readByte_cons] at hread
    split_ifs at hread with hd
    · exact List.mem_cons.2 (.inl (Prod.ext hd.symm hread.symm))
    · exact List.mem_cons_of_mem _ (ih (wf_tail h) hread)

/-- Memories in canonical form that read alike are one memory. -/
theorem memory_eq_of_readByte_eq {m m' : Memory} (h : Memory.wf m) (h' : Memory.wf m')
    (hread : ∀ a, readByte m a = readByte m' a) : m = m' := by
  have hmem (c : Host.Cell) : c ∈ m ↔ c ∈ m' := by rw [mem_memory_iff h, mem_memory_iff h', hread]
  have hnodup {l : Memory} (hl : Memory.wf l) : l.Nodup := hl.1.imp fun hlt he => absurd (he ▸ hlt) (lt_irrefl _)
  refine ((List.perm_ext_iff_of_nodup (hnodup h) (hnodup h')).2 hmem).eq_of_pairwise ?_ h.1 h'.1
  exact fun a b _ _ hab hba => absurd hab hba.asymm

/-- A word write takes the place of bytes written to the same word before it. -/
theorem writeWord_writeBytes {m : Memory} {cells : List Host.Cell} {a : Nat} (v : Word) (h : Memory.wf m)
    (hc : ∀ c ∈ cells, InWord c.1 a) : writeWord (writeBytes m cells) a v = writeWord m a v := by
  have hw := writeBytes_wf m cells h
  refine memory_eq_of_readByte_eq (writeWord_wf _ a v hw) (writeWord_wf m a v h) fun x => ?_
  rw [readByte_writeWord _ a v hw, readByte_writeWord m a v h]
  split_ifs with hx
  · rfl
  · exact readByte_writeBytes_outside m cells h x fun c hcm he => hx (he ▸ hc c hcm)

/-! ### An update whose window other agents' writes fall into (R166) -/

/-- The `Wr` of an update takes the place of what other agents wrote to its word since the `Rd`. -/
theorem advance_wrField_envWrites {u : Update} {cells : List Host.Cell} {s : State} (a : After) (h : Memory.wf s.mem)
    (hc : ∀ c ∈ cells, InWord c.1 (updateAddr s u)) :
    advance ⟨.wrField u, a⟩ (envWrites cells s) = advance ⟨.wrField u, a⟩ s := by
  have hvalue : updateValue (envWrites cells s) u = updateValue s u := updateValue_congr rfl rfl u
  have hport : perform (.wrField u) (envWrites cells s) = perform (.wrField u) s := by
    have hmem := writeWord_writeBytes (mergeField (updateMask u) (updateValue s u) s.tmp) h hc
    rw [perform_wrField, perform_wrField, hvalue]
    exact congrArg (fun m => record _ { s with mem := m }) hmem
  rw [advance_eq, advance_eq, hport]

/-- The answer to a port operation brings nothing, or only writes that the operation itself covers. -/
def Covered (p : Params) (op : MicroOp) (x : Answer) : Prop :=
  x = .ok ∨ ∃ u cells, op.port = .wrField u ∧ x = .after cells ∧
    ∀ c ∈ cells, InWord c.1 (portAddr p (updateWindow u) (updateOffset u))

/-- A covered answer makes no difference to an answer `ok`. -/
theorem runOps_cons_of_covered {op : MicroOp} {s : State} (ops : List MicroOp) (h : Memory.wf s.mem)
    (hx : Covered s.params op (nextAnswer s)) : runOps (op :: ops) s = runOps ops (advance op (dropAnswer s)) := by
  rcases hx with hok | ⟨u, cells, hport, hafter, hc⟩
  · exact runOps_ok _ _ _ (portReply_of_ok _ _ hok)
  · obtain ⟨p, a⟩ := op
    obtain rfl : p = .wrField u := hport
    rw [runOps_after _ _ _ _ (portReply_of_after _ _ _ hafter), advance_wrField_envWrites a (s := dropAnswer s) h hc]

/-- Port operations whose answers are all covered are done as if nobody had written. -/
theorem runOps_of_covered {ops : List MicroOp} {xs more : List Answer} {s : State} (h : Memory.wf s.mem)
    (ha : s.answers = xs ++ more) (hx : List.Forall₂ (Covered s.params) ops xs) :
    runOps ops s = complete (advanceAll ops s) := by
  induction ops generalizing xs s with
  | nil => rfl
  | cons op ops ih =>
    obtain ⟨x, xs, hop, hops, rfl⟩ := List.forall₂_cons_left_iff.1 hx
    have hnext : nextAnswer s = x := by rw [nextAnswer, ha]; rfl
    obtain ⟨hparams, -, -, hanswers⟩ := advance_outside op (dropAnswer s)
    obtain ⟨m, v, events, hm, hu⟩ := portDone_perform op s
    have hmem : Memory.wf (advance op (dropAnswer s)).mem := by rw [advance_eq, hu, applyAfter_mem]; exact hm h
    have htail : (advance op (dropAnswer s)).answers = xs ++ more := by rw [hanswers, dropAnswer_answers, ha]; rfl
    rw [runOps_cons_of_covered ops h (hnext ▸ hop), advanceAll_cons]
    exact ih hmem htail (hparams ▸ hops)

/-- Answered port operations do not look at the answers, and use up one each. -/
theorem advanceAll_withAnswers (ops : List MicroOp) (s : State) (xs : List Answer) :
    advanceAll ops { s with answers := xs } = { advanceAll ops s with answers := xs.drop ops.length } := by
  induction ops generalizing s xs with
  | nil => rfl
  | cons op ops ih =>
    have hhead : advance op (dropAnswer { s with answers := xs }) =
      { advance op (dropAnswer s) with answers := xs.tail } := advance_withAnswers op (dropAnswer s) xs.tail
    rw [advanceAll_cons, advanceAll_cons, hhead, ih, List.length_cons, List.drop_tail]

theorem completedState_withAnswers (i : Instr) (s : State) (xs : List Answer) :
    completedState i { s with answers := xs } =
      { completedState i s with answers := xs.drop (program i s.isRunning).length } := by
  rw [completedState, startedState_withAnswers, advanceAll_withAnswers]; rfl

/-- A command whose answers are all covered is the command with nobody to disturb it (R166). -/
theorem exec_of_covered {i : Instr} {s : State} {xs more : List Answer} (h : Memory.wf s.mem) (hadm : Admitted i s)
    (ha : s.answers = xs ++ more) (hx : List.Forall₂ (Covered s.params) (program i s.isRunning) xs) :
    exec i s = .next (completedState i s) := by
  have ha' : (startedState i s).answers = xs ++ more := by simpa [startedState] using ha
  have hx' : List.Forall₂ (Covered (startedState i s).params) (program i s.isRunning) xs := by simpa using hx
  rw [exec_of_admitted hadm, runOps_of_covered (by simpa using h) ha' hx', completedState]

/-- `s` with `n` answers `ok` and then `more` to come. -/
def answeredOk (n : Nat) (more : List Answer) (s : State) : State := { s with answers := List.replicate n .ok ++ more }

theorem answersOk_answeredOk (n : Nat) (more : List Answer) (s : State) : AnswersOk n (answeredOk n more s) := by
  intro k hk
  rw [State.answer, answeredOk, List.getD_append _ _ _ _ (by simpa using hk), List.getD_replicate _ hk]

theorem completedState_answeredOk {i : Instr} {s : State} {more : List Answer}
    (hmore : s.answers.drop (program i s.isRunning).length = more) :
    completedState i (answeredOk (program i s.isRunning).length more s) = completedState i s := by
  have hanswers : (completedState i s).answers = more := (completedState_answers i s).trans hmore
  rw [answeredOk, completedState_withAnswers, List.drop_left' List.length_replicate]
  exact congrArg (fun as => { completedState i s with answers := as }) hanswers.symm

/-- A command whose answers are all covered ends where it ends with answers `ok` in their place. -/
theorem exec_of_covered_eq {i : Instr} {s : State} {xs more : List Answer} (h : Memory.wf s.mem) (hadm : Admitted i s)
    (ha : s.answers = xs ++ more) (hx : List.Forall₂ (Covered s.params) (program i s.isRunning) xs) :
    exec i s = exec i (answeredOk (program i s.isRunning).length more s) := by
  have hmore : s.answers.drop (program i s.isRunning).length = more := by rw [ha, hx.length_eq, List.drop_left]
  rw [exec_of_covered h hadm ha hx, ← completedState_answeredOk hmore]
  exact (exec_of_answersOk (s := answeredOk _ more s) hadm (answersOk_answeredOk _ more s)).symm

/-- Settles O58: the writes in either window fall into the word that the `Wr` at its end covers, so this `STOP` is that
of `StopCompletes`, with ten answers `ok`. -/
theorem stopLosesBothUpdates : Obligations.StopLosesBothUpdates := by
  intro s xs ys more hc hf hm hl hxs hys ha
  have hok {op : MicroOp} : Covered s.params op .ok := .inl rfl
  have hpin : Covered s.params ⟨.wrField .pinGpio, .nothing⟩ (.after xs) := .inr ⟨_, xs, rfl, rfl, hxs⟩
  have hpwm : Covered s.params ⟨.wrField .disable, .nothing⟩ (.after ys) := .inr ⟨_, ys, rfl, rfl, hys⟩
  have hcovered : List.Forall₂ (Covered s.params) (program .stop s.isRunning)
      [.ok, .ok, .after xs, .ok, .ok, .ok, .ok, .ok, .after ys, .ok] :=
    .cons hok <| .cons hok <| .cons hpin <| .cons hok <| .cons hok <| .cons hok <| .cons hok <| .cons hok <|
    .cons hpwm <| .cons hok .nil
  have hexec : exec .stop s = exec .stop (answeredOk 10 more s) :=
    exec_of_covered_eq hm (admitted_stop hc hf) ha hcovered
  obtain ⟨t, ht, hrun, -, -, -, -, hend, hcfg, hdat, hctrl, hbytes, -, hanswers, htrace⟩ :=
    stopCompletes (answeredOk 10 more s) hc hf hm hl (answersOk_answeredOk 10 more s)
  exact ⟨t, hexec.trans ht, hend, hrun, hanswers, hcfg, hdat, hctrl, hbytes, htrace⟩

end Sys2Proof.Machine

namespace Sys2Proof.Machine

/-! ### Two blocks that differ outside the target registers alone -/

theorem inTargets_congr {s t : State} (h : t.params = s.params) (a : Nat) : InTargets t a ↔ InTargets s a := by
  simp only [InTargets, addrPwmCtrl, addrPwmPeriod, addrPinCfg, addrPinDat, h]

/-- Words are equal whose bytes are. -/
theorem readWord_congr {m m' : Memory} {w : Nat} (h : ∀ a, InWord a w → readByte m' a = readByte m a) :
    readWord m' w = readWord m w := by
  rw [readWord, h (w + 3) (by omega), h (w + 2) (by omega), h (w + 1) (by omega), h w (by omega), readWord]

/-- One word written to two memories leaves the bytes alike that were alike. -/
theorem readByte_writeWord_congr {m m' : Memory} {w x : Nat} {v : Word} (hm : Memory.wf m) (hm' : Memory.wf m')
    (h : readByte m' x = readByte m x) : readByte (writeWord m' w v) x = readByte (writeWord m w v) x := by
  rw [readByte_writeWord m' w v hm', readByte_writeWord m w v hm, h]

/-- `t` is `s` but for the bytes outside the target registers and for what the outside world is to do. -/
structure SameOnTargets (s t : State) : Prop where
  memory : Memory.wf s.mem
  memory' : Memory.wf t.mem
  targets : ∀ a, InTargets s a → readByte t.mem a = readByte s.mem a
  block : ∃ m as r is, t = { s with mem := m, answers := as, restAnswer := r, inputs := is }

/-- Of the port operations, a `Rd` reads a register that some update works on (R91). -/
def readsRegister : PortOp → Bool
  | .rd w off => [Update.prescal, .pinGpio, .pinLow].any fun u => updateRegister u == (w, off)
  | .acquire _ | .release _ | .wrField _ | .wrPeriod => true

theorem readsRegister_program (i : Instr) (r : Bool) : ∀ op ∈ program i r, readsRegister op.port = true := by
  cases i <;> cases r <;> simp only [program] <;> decide

theorem inTargets_of_readsRegister {w : Window} {off a : Nat} {s : State} (h : readsRegister (.rd w off) = true)
    (ha : InWord a (portAddr s.params w off)) : InTargets s a := by
  obtain ⟨u, -, hu⟩ := List.any_eq_true.1 h
  obtain ⟨rfl, rfl⟩ := Prod.mk.inj (eq_of_beq hu)
  exact inTargets_of_inWord_updateAddr ha

section SameOnTargets

variable {s t : State}

theorem SameOnTargets.readWord (h : SameOnTargets s t) {w : Nat} (hw : ∀ a, InWord a w → InTargets s a) :
    readWord t.mem w = readWord s.mem w :=
  readWord_congr fun a ha => h.targets a (hw a ha)

theorem SameOnTargets.params (h : SameOnTargets s t) : t.params = s.params := by
  obtain ⟨m, as, r, is, rfl⟩ := h.block; rfl

theorem SameOnTargets.dropAnswer (h : SameOnTargets s t) :
    SameOnTargets (dropAnswer s) (dropAnswer t) where
  memory := h.memory
  memory' := h.memory'
  targets := h.targets
  block := by obtain ⟨m, as, r, is, rfl⟩ := h.block; exact ⟨m, as.tail, r, is, rfl⟩

/-- Writes of other agents that spare the target registers. -/
theorem SameOnTargets.envWrites (h : SameOnTargets s t) {cells : List Host.Cell} (hc : ∀ c ∈ cells, ¬ InTargets s c.1) :
    SameOnTargets s (envWrites cells t) where
  memory := h.memory
  memory' := writeBytes_wf _ _ h.memory'
  targets a ha :=
    (readByte_writeBytes_outside _ _ h.memory' a fun c hcm he => hc c hcm (he ▸ ha)).trans (h.targets a ha)
  block := by obtain ⟨m, as, r, is, rfl⟩ := h.block; exact ⟨_, as, r, is, rfl⟩

theorem SameOnTargets.withInputs (h : SameOnTargets s t) (is : List Input) :
    SameOnTargets s { t with inputs := is } where
  memory := h.memory
  memory' := h.memory'
  targets := h.targets
  block := by obtain ⟨m, as, r, is', rfl⟩ := h.block; exact ⟨m, as, r, is, rfl⟩

theorem SameOnTargets.portWr (h : SameOnTargets s t) (w : Window) (off : Nat) (v : Word) :
    SameOnTargets (portWr w off v s) (portWr w off v t) where
  memory := writeWord_wf _ _ _ h.memory
  memory' := writeWord_wf _ _ _ h.memory'
  targets a ha := by
    rw [portWr_mem, portWr_mem, h.params]
    exact readByte_writeWord_congr h.memory h.memory' (h.targets a ha)
  block := by obtain ⟨m, as, r, is, rfl⟩ := h.block; exact ⟨_, as, r, is, rfl⟩

/-- The same port operation at both. -/
theorem SameOnTargets.perform (h : SameOnTargets s t) {p : PortOp} (hp : readsRegister p = true) :
    SameOnTargets (perform p s) (perform p t) := by
  have hall := h
  obtain ⟨hm, hm', htargets, m, as, r, is, rfl⟩ := h
  cases p with
  | acquire w | release w => exact ⟨hm, hm', htargets, m, as, r, is, rfl⟩
  | rd w off =>
    have hword : Machine.readWord m (portAddr s.params w off) = Machine.readWord s.mem (portAddr s.params w off) :=
      hall.readWord fun a ha => inTargets_of_readsRegister hp ha
    refine ⟨hm, hm', htargets, m, as, r, is, ?_⟩
    rw [perform_rd, perform_rd, portRd, portRd, hword]; rfl
  | wrField u =>
    rw [perform_wrField, perform_wrField, updateValue_congr hall.params rfl]
    exact hall.portWr _ _ _
  | wrPeriod => exact hall.portWr _ _ _

theorem SameOnTargets.applyAfter (h : SameOnTargets s t) (a : After) :
    SameOnTargets (applyAfter a (countStep s)) (applyAfter a (countStep t)) := by
  obtain ⟨hm, hm', htargets, m, as, r, is, rfl⟩ := h
  cases a <;> exact ⟨hm, hm', htargets, m, as, r, is, rfl⟩

theorem SameOnTargets.advance (h : SameOnTargets s t) {op : MicroOp} (hp : readsRegister op.port = true) :
    SameOnTargets (advance op s) (advance op t) :=
  (h.perform hp).applyAfter op.after

theorem SameOnTargets.complete (h : SameOnTargets s t) : SameOnTargets (complete s) (complete t) := by
  obtain ⟨hm, hm', htargets, m, as, r, is, rfl⟩ := h
  exact ⟨hm, hm', htargets, m, as, r, is, rfl⟩

end SameOnTargets

end Sys2Proof.Machine

namespace Sys2Proof.Machine

/-! ### A command that late answers and other agents disturb outside the target registers alone (R175) -/

/-- An answer under the premises of R175: no `Acquire` fails, the target registers are plain stores, and no other agent
writes them. -/
def Harmless (s : State) (x : Answer) : Prop :=
  x ≠ .fail ∧ (∀ v fx, x ≠ .reads v fx) ∧ ∀ c ∈ x.others, ¬ InTargets s c.1

theorem harmless_congr {s t : State} (h : t.params = s.params) (x : Answer) : Harmless t x ↔ Harmless s x := by
  simp only [Harmless, inTargets_congr h]

/-- A harmless answer leaves the port operation to wait, or completes it after writes elsewhere. -/
theorem runOps_cons_of_harmless {x s : State} (op : MicroOp) (ops : List MicroOp) (h : Harmless x (nextAnswer s)) :
    (nextAnswer s = .wait ∧ runOps (op :: ops) s = dropAnswer s) ∨
      ∃ cells, (∀ c ∈ cells, ¬ InTargets x c.1) ∧
        runOps (op :: ops) s = runOps ops (advance op (envWrites cells (dropAnswer s))) := by
  obtain ⟨hfail, hreads, hothers⟩ := h
  cases hx : nextAnswer s with
  | ok => exact .inr ⟨[], nofun, runOps_ok _ _ _ (portReply_of_ok _ _ hx)⟩
  | fail => exact absurd hx hfail
  | wait => exact .inl ⟨rfl, runOps_wait _ _ _ (portReply_of_wait _ _ hx)⟩
  | after cells =>
    rw [hx] at hothers
    exact .inr ⟨cells, hothers, runOps_after _ _ _ _ (portReply_of_after _ _ _ hx)⟩
  | reads v fx => exact absurd hx (hreads v fx)

/-- The disturbed block `s` stands in command `i` where the port operations `todo` are still to be done, as does the
undisturbed one `x`, and what is to come of the port is harmless. -/
structure GoesOn (i : Instr) (r : Bool) (todo : List MicroOp) (x s : State) : Prop where
  position : ResumesAt i r todo s
  same : SameOnTargets x s
  busy : s.busy = true
  harmless : ∀ a ∈ s.coming, Harmless x a
  answered : s.restAnswer ≠ .wait

/-- How port operations end that `GoesOn` describes: with the command, where the undisturbed block ends it, in `t`; or
at an operation that waits, from where both blocks go on to the same end. -/
inductive EndsOrWaits (i : Instr) (r : Bool) (t s u : State) : Prop
  | ends (idle : u.busy = false) (same : SameOnTargets t u) : EndsOrWaits i r t s u
  | waits (todo : List MicroOp) (x : State) (hne : todo ≠ []) (goesOn : GoesOn i r todo x u)
      (hend : complete (advanceAll todo x) = t) (fewer : u.answers.length < s.answers.length) : EndsOrWaits i r t s u

section GoesOn

variable {i : Instr} {r : Bool} {todo : List MicroOp} {x s : State}

/-- A port operation that completed at both blocks, at the disturbed one after writes elsewhere. -/
theorem GoesOn.next {op : MicroOp} {cells : List Host.Cell} (h : GoesOn i r (op :: todo) x s)
    (hc : ∀ c ∈ cells, ¬ InTargets x c.1) :
    GoesOn i r todo (advance op (dropAnswer x)) (advance op (envWrites cells (dropAnswer s))) := by
  have hdone := portDone_envWrites op cells s
  obtain ⟨hparams, -⟩ := advance_outside op (dropAnswer x)
  obtain ⟨-, -, hrest, -⟩ := advance_outside op (envWrites cells (dropAnswer s))
  have hreads : readsRegister op.port = true := by
    obtain ⟨done, hprog, -⟩ := h.position.position
    exact readsRegister_program i r op (by simp [hprog])
  constructor
  case position => exact h.position.next hdone
  case same => exact (h.same.dropAnswer.envWrites hc).advance hreads
  case busy =>
    obtain ⟨m, v, events, -, hu⟩ := hdone
    rw [advance_eq, hu, applyAfter_busy]; exact h.busy
  case harmless => exact fun a ha => (harmless_congr hparams a).2 (h.harmless a (hdone.coming a ha))
  case answered => rw [hrest]; exact h.answered

/-- The block waits: it has used up an answer, and nothing else has changed. -/
theorem GoesOn.dropAnswer (h : GoesOn i r todo x s) : GoesOn i r todo x (dropAnswer s) where
  position := ⟨h.position.command, h.position.position, h.position.choice⟩
  same := by
    obtain ⟨hm, hm', htargets, m, as, r, is, rfl⟩ := h.same
    exact ⟨hm, hm', htargets, m, as.tail, r, is, rfl⟩
  busy := h.busy
  harmless a ha := h.harmless a ((byteKept_dropAnswer 0 h.same.memory').coming a ha)
  answered := h.answered

/-- Another agent's write elsewhere. -/
theorem GoesOn.envWrite {cell : Host.Cell} (h : GoesOn i r todo x s) (hc : ¬ InTargets x cell.1) (rest : List Input) :
    GoesOn i r todo x (envWrite cell { s with inputs := rest }) where
  position := ⟨h.position.command, h.position.position, h.position.choice⟩
  same := (h.same.withInputs rest).envWrites (cells := [cell]) (List.forall_mem_singleton.2 hc)
  busy := h.busy
  harmless := h.harmless
  answered := h.answered

theorem GoesOn.fewer_answers (h : GoesOn i r todo x s) (hwait : nextAnswer s = .wait) :
    s.answers.tail.length < s.answers.length := by
  cases ha : s.answers with
  | nil => rw [nextAnswer, ha] at hwait; exact absurd hwait h.answered
  | cons a as => exact Nat.lt_succ_self _

theorem EndsOrWaits.of_next {t s u : State} {op : MicroOp} {cells : List Host.Cell}
    (h : EndsOrWaits i r t (advance op (Machine.envWrites cells (Machine.dropAnswer s))) u) :
    EndsOrWaits i r t s u := by
  obtain ⟨-, -, -, hanswers⟩ := advance_outside op (envWrites cells (dropAnswer s))
  cases h with
  | ends idle same => exact .ends idle same
  | waits todo x hne goesOn hend fewer =>
    rw [hanswers, envWrites_answers, dropAnswer_answers, List.length_tail] at fewer
    exact .waits todo x hne goesOn hend (by omega)

/-- A run through port operations, by the answer to each. -/
theorem GoesOn.endsOrWaits (h : GoesOn i r todo x s) :
    EndsOrWaits i r (complete (advanceAll todo x)) s (runOps todo s) := by
  induction todo generalizing x s with
  | nil => exact .ends rfl h.same.complete
  | cons op ops ih =>
    rcases runOps_cons_of_harmless op ops (h.harmless _ (nextAnswer_mem_coming s)) with
      ⟨hwait, hrun⟩ | ⟨cells, hcells, hrun⟩
    · rw [hrun]
      exact .waits _ x (List.cons_ne_nil op ops) h.dropAnswer rfl (h.fewer_answers hwait)
    · rw [hrun]
      exact (ih (h.next hcells)).of_next

end GoesOn

/-- On the run from here, no busy block meets another agent's write to a target register or a hardware reset. -/
def Calm (s : State) : Prop :=
  ∀ n t, Sys2Proof.core.run n s = .next t → t.busy = true →
    (∀ cell rest, t.inputs = .envWrite cell :: rest → ¬ InTargets s cell.1) ∧ ∀ rest, t.inputs ≠ .hardReset :: rest

theorem run_succ_of_step {s u : State} (h : step s = .next u) (n : Nat) :
    Sys2Proof.core.run (n + 1) s = Sys2Proof.core.run n u := by
  simp [Host.Core.run, Sys2Proof.core, h]

theorem Calm.step {s u : State} (h : Calm s) (hstep : step s = .next u) : Calm u := by
  intro n t hrun hb
  have hparams : u.params = s.params := (parametersFixedTraceGrows s u hstep).1
  simpa only [inTargets_congr hparams] using h (n + 1) t ((run_succ_of_step hstep n).trans hrun) hb

/-- Some number of steps from `s` ends the command, with the block registers and the target words of `t`. -/
def RunsTo (s t : State) : Prop :=
  ∃ n v, Sys2Proof.core.run n s = .next v ∧ v.busy = false ∧ SameOnTargets t v

theorem RunsTo.of_step {s u t : State} (h : RunsTo u t) (hstep : Machine.step s = .next u) : RunsTo s t := by
  obtain ⟨n, v, hrun, idle, same⟩ := h
  exact ⟨n + 1, v, (run_succ_of_step hstep n).trans hrun, idle, same⟩

/-- A waiting block goes on to the end that the undisturbed one reaches: each step uses up an answer or an input. -/
theorem GoesOn.runsTo {i : Instr} {r : Bool} {todo : List MicroOp} {x s : State} (hwf : i.wellFormed = true)
    (h : GoesOn i r todo x s) (hne : todo ≠ []) (hcalm : Calm s) : RunsTo s (complete (advanceAll todo x)) := by
  obtain ⟨hwrite, hreset⟩ := hcalm 0 s rfl h.busy
  have resumes (hin : s.inputs = [] ∨ ∃ c rest, s.inputs = .command c :: rest) :
      RunsTo s (complete (advanceAll todo x)) := by
    have hstep : step s = .next (runOps todo s) := by
      obtain ⟨op, ops, rfl⟩ := List.exists_cons_of_ne_nil hne
      exact (step_resumes s h.busy hin).trans (h.position.resume_eq hwf)
    have hinputs : (runOps todo s).inputs = s.inputs := (runOps_outside todo s).2.1
    cases h.endsOrWaits with
    | ends idle same => exact .of_step ⟨0, _, rfl, idle, same⟩ hstep
    | waits todo' x' hne' goesOn hend fewer =>
      exact hend ▸ (goesOn.runsTo hwf hne' (hcalm.step hstep)).of_step hstep
  match hin : s.inputs with
  | [] => exact resumes (.inl hin)
  | .command c :: rest => exact resumes (.inr ⟨c, rest, hin⟩)
  | .hardReset :: rest => exact absurd hin (hreset rest)
  | .envWrite cell :: rest =>
    have hstep := step_envWrite hin
    have hcell : ¬ InTargets x cell.1 := (inTargets_congr h.same.params _).not.1 (hwrite cell rest hin)
    exact ((h.envWrite hcell rest).runsTo hwf hne (hcalm.step hstep)).of_step hstep
termination_by s.answers.length + s.inputs.length
decreasing_by
  · rw [hinputs]; omega
  · simp [hin]

theorem EndsOrWaits.runsTo {i : Instr} {r : Bool} {t s u : State} (hwf : i.wellFormed = true)
    (h : EndsOrWaits i r t s u) (hcalm : Calm u) : RunsTo u t := by
  cases h with
  | ends idle same => exact ⟨0, u, rfl, idle, same⟩
  | waits todo x hne goesOn hend => exact hend ▸ goesOn.runsTo hwf hne hcalm

/-- The premises of R175 about the answers, taken together. -/
theorem harmless_of_premises {s : State} (hplain : PlainStore s) (hok : AcquireOk s) (hothers : NoTargetWrites s) :
    ∀ a ∈ s.coming, Harmless s a := by
  obtain ⟨hanswers, hrest⟩ := hok
  exact fun a ha => ⟨List.forall_mem_cons (p := (· ≠ .fail)) |>.2 ⟨hrest, hanswers⟩ a ha, hplain a ha, hothers a ha⟩

theorem calm_of_premises {s : State} (hothers : NoInterference s) (hreset : NoResetWhileBusy s) : Calm s := by
  obtain ⟨-, hwrites⟩ := hothers
  exact fun n t hrun hb => ⟨hwrites n t hrun hb, hreset n t hrun hb⟩

theorem startedState_undisturbed (i : Instr) (s : State) :
    startedState i (undisturbed s) = undisturbed (startedState i s) := by
  cases i <;> rfl

/-- The first port operation of an admitted command, with somebody to disturb it and without. -/
theorem goesOn_startedState {i : Instr} {s : State} (hm : Memory.wf s.mem)
    (hharmless : ∀ a ∈ s.coming, Harmless s a) (hanswered : s.restAnswer ≠ .wait) :
    GoesOn i s.isRunning (program i s.isRunning) (startedState i (undisturbed s)) (startedState i s) := by
  obtain ⟨hparams, -, hrest⟩ := startedState_outside i s
  have hanswers : (startedState i s).answers = s.answers := by simp [startedState]
  rw [startedState_undisturbed]
  constructor
  case position => exact resumesAt_startedState i s
  case same =>
    have hm' : Memory.wf (startedState i s).mem := by simpa using hm
    exact ⟨hm', hm', fun _ _ => rfl, _, _, _, _, rfl⟩
  case busy => simp [startedState]
  case harmless =>
    rw [State.coming, hrest, hanswers]
    exact fun a ha => (harmless_congr (s := s) hparams a).2 (hharmless a ha)
  case answered => rw [hrest]; exact hanswered

/-- Settles O60: the block with somebody to disturb it runs along the one without, and ends where that one does. -/
theorem premisesMakeCommandAtomic : Obligations.PremisesMakeCommandAtomic := by
  intro i rest s hwf hm idle hin hadm hothers hplain hanswered hreset hok
  have hharmless := harmless_of_premises hplain hok hothers.1
  have hstart := goesOn_startedState (i := i) (s := { s with inputs := rest }) hm hharmless hanswered
  have hstep := step_command_admitted idle hin hwf hadm
  have hcalm := (calm_of_premises hothers hreset).step hstep
  have hends : RunsTo s (completedState i (undisturbed s)) := (hstart.endsOrWaits.runsTo hwf hcalm).of_step hstep
  obtain ⟨n, v, hrun, hidle, same⟩ := hends
  refine ⟨_, exec_of_answersOk (s := undisturbed s) hadm fun _ _ => rfl, n, v, hrun, hidle, ?_⟩
  have hctrl := same.readWord (w := addrPwmCtrl _) fun a ha => .inl ha
  have hperiod := same.readWord (w := addrPwmPeriod _) fun a ha => .inr (.inl ha)
  have hcfg := same.readWord (w := addrPinCfg _) fun a ha => .inr (.inr (.inl ha))
  have hdat := same.readWord (w := addrPinDat _) fun a ha => .inr (.inr (.inr ha))
  obtain ⟨m, as, r, is, rfl⟩ := same.block
  exact ⟨rfl, rfl, rfl, ⟨rfl, rfl, rfl⟩, ⟨rfl, rfl⟩, ⟨rfl, rfl, rfl⟩, rfl, hctrl, hperiod, hcfg, hdat⟩

end Sys2Proof.Machine

namespace Sys2Proof.Machine

/-! ### The canonical form of memory (assumption log 1) -/

/-- Settles O14: what a memory in canonical form lists is decided by what its addresses read as (`mem_memory_iff`), and
its rising addresses leave only one order to list it in. -/
theorem memoryExtensional : Obligations.MemoryExtensional := by
  intro m₁ m₂ h₁ h₂ hread
  exact memory_eq_of_readByte_eq h₁ h₂ hread

end Sys2Proof.Machine
